-- ==== Sys2Proof/Word.lean ====
section
/-! DEFINITION. The widths the manual gives its bit-level quantities. Nothing here holds behaviour. -/

namespace Sys2Proof

/-- One byte of the store (R24). -/
abbrev Byte := BitVec 8

/-- A 32-bit value of the port link's data path, of a register, or of one aligned store word (R2, R7). -/
abbrev Word := BitVec 32

/-- A 24-bit port address (Table 1.1, Table 1.2). -/
abbrev PortAddr := BitVec 24

/-- An address of the 262,144-byte store (R24). -/
abbrev StoreAddr := BitVec 18

/-- A value of TIME, counted modulo 2^48 (R138). -/
abbrev Time := BitVec 48

end Sys2Proof
end

