-- ==== Sys2Proof/Machine/Bits.lean ====
section
/-! DEFINITION. Placing fields into register words, taking them out, and the two halves of a 48-bit TIME. -/

namespace Sys2Proof.Machine

/-- The register word whose bits from `pos` upward hold the field `v`. -/
def place {n : Nat} (v : BitVec n) (pos : Nat) : Word := v.setWidth 32 <<< pos

/-- The register word that holds the single bit `b` at `pos`. -/
def flagAt (b : Bool) (pos : Nat) : Word := place (BitVec.ofBool b) pos

/-- Bit `i` of a written word. -/
def bit (w : Word) (i : Nat) : Bool := w.getLsbD i

/-- `w` with the bits selected by `mask` replaced by those of `v`. -/
def withBits (w mask v : Word) : Word := (w &&& ~~~mask) ||| (v &&& mask)

/-- The sixteen flags of which only number `i` is 1. -/
def oneHot (i : BitVec 4) : BitVec 16 := 1#16 <<< i.toNat

/-- Bits 31:0 of a 48-bit value. -/
def loWord (t : Time) : Word := t.setWidth 32

/-- Bits 47:32 of a 48-bit value. -/
def hiHalf (t : Time) : BitVec 16 := t.extractLsb' 32 16

/-- The 48-bit value with the given halves. -/
def joinTime (hi : BitVec 16) (lo : Word) : Time := hi ++ lo

/-- Byte `n` of a word, counted from the least significant (little-endian, the introduction's "Byte order"). -/
def byteOf (w : Word) (n : Nat) : Byte := w.extractLsb' (8 * n) 8

/-- The word whose bytes, least significant first, are given. -/
def joinBytes (b0 b1 b2 b3 : Byte) : Word := b3 ++ (b2 ++ (b1 ++ b0))

end Sys2Proof.Machine
end

