-- ==== Sys2Proof/Syntax.lean ====
section
/-! DEFINITION. What comes to the bridge from outside: the two ports, the link transactions they present, the
registers of Table 1.3 as names, and the ONE inductive `Instr`, with one constructor for each row of the opcode
table. A host command carries the written word of its register; bits a rule ignores stay in that word. -/

namespace Sys2Proof

/-- The two ports. Port A is the steward (R19). -/
inductive Port where
  | A
  | B
  deriving DecidableEq, Repr

/-- The partner of a port. -/
def Port.other : Port → Port
  | .A => .B
  | .B => .A

/-- What xWR and xWDATA carry: a read, or a write with its 32-bit data (R1 captures xWDATA for a write only). -/
inductive BusOp where
  | read
  | write (data : Word)
  deriving DecidableEq, Repr

/-- One transaction as a port link presents it: xADDR, xSIZE, xWR with xWDATA (Table 1.1). -/
structure Txn where
  addr : PortAddr
  size : BitVec 2
  op   : BusOp
  deriving DecidableEq, Repr

/-- Who presents a host command, and what the partner's link presents at the same core clock, if anything.
With `rival = some t` both transactions are taken at one instant and TURN orders the two steps (R9). -/
structure Sender where
  port  : Port
  rival : Option Txn
  deriving DecidableEq, Repr

/-- The four error counters of a port (Table 3.10). -/
inductive Counter where
  | deny
  | fault
  | refuse
  | loss
  deriving DecidableEq, Repr

/-- The three conduit configuration registers that an enabled conduit holds closed (R72). -/
inductive CfgReg where
  | mode
  | base
  | slot
  deriving DecidableEq, Repr

/-- A level change of an input pin (R156). -/
inductive Edge where
  | rising
  | falling
  deriving DecidableEq, Repr

/-- The level a pin shows after an edge. -/
def Edge.level : Edge → Bool
  | .rising => true
  | .falling => false

/-- The levels on the input pins CUTOFF_N and CAP_IN[3:0]. They are driven from outside and hold between the commands
that change them. RESET_N is no member: it is low exactly during pin reset. -/
structure Pins where
  cutoffN : Bool
  capIn   : BitVec 4
  deriving DecidableEq, Repr

/-- An edge on a pin, with the levels that all the input pins show at the sample that shows the edge. -/
structure PinEdge where
  edge : Edge
  pins : Pins
  deriving DecidableEq, Repr

/-- A new level of a pin, with the levels that all the input pins show at the sample that shows it. -/
structure PinLevel where
  level : Bool
  pins  : Pins
  deriving DecidableEq, Repr

/-- The registers of Table 1.3. Registers that exist per conduit (`c`), cadence or capture channel (`k`), port (`y`)
or counter carry that index; a banked register is one name here, and the accessing port selects the copy (R12). -/
inductive Reg where
  | ident | bridgeStatus | bridgeControl | portControl
  | liveLimit (y : Port) | liveStatus
  | viewBase | viewControl | invalidate | probeAddr | probeResult | probePhys | cacheStatus
  | denyInfo | denyAddr | denyTime | denyRelease
  | faultInfo | faultAddr | faultTime | faultRelease
  | counter (n : Counter)
  | linePending | lineEnable | routeLo | routeHi | tierControl | tierStatus | claim | dismiss
  | doorbellOut | doorbellIn | doorbellMask
  | tokenCommand | tokenResult | tokenState | tokenWait | tokenNotice
  | conduitCommand | conduitResult | slotInfoSeq | slotInfoTimeLo | slotInfoTimeHi
  | commitNotice | drainNotice | resetNotice
  | cfg (r : CfgReg) (c : BitVec 4) | cfgEnable (c : BitVec 4)
  | cfgStatus (c : BitVec 4) | cfgOccupancy (c : BitVec 4)
  | timeLo | timeHi | timeSetLo | timeSetHi | prescale | timeControl | timeStatus
  | cadConfig (k : BitVec 2) | cadStartLo (k : BitVec 2) | cadStartHi (k : BitVec 2) | cadPeriod (k : BitVec 2)
  | cadPeriodStage (k : BitVec 2) | cadWidth (k : BitVec 2) | cadWidthStage (k : BitVec 2) | cadCommand (k : BitVec 2)
  | cadStatus (k : BitVec 2) | cadNextLo (k : BitVec 2) | cadNextHi (k : BitVec 2) | cadAck (k : BitVec 2)
  | capConfig (k : BitVec 2) | capInfo (k : BitVec 2) | capTimeLo (k : BitVec 2) | capTimeHi (k : BitVec 2)
  | cutoffControl | cutoffTrigger | cutoffStatus
  deriving DecidableEq, Repr

/-- The commands of the part: one constructor for each row of the opcode table. `p` says who presents a host
command; `w` is the word it writes, in which the bits that name the row are fixed by the row (`WellFormed`). The
internal events carry the port, cadence or channel they happen to. A pin row carries the levels `pins` that all the
input pins show at its sample; its own pin shows the row's level, whatever `pins` says of it. -/
inductive Instr where
  /-- VIEW_ACCESS (R34): an access at port address 100000h + `off`. -/
  | viewAccess (p : Sender) (off : BitVec 20) (size : BitVec 2) (op : BusOp)
  /-- UNMAPPED_ACCESS (R6): a transaction addressed to neither space. -/
  | unmappedAccess (p : Sender) (t : Txn)
  /-- REGISTER_WRITE (R13): a write in the register window that is no row of its own. -/
  | registerWrite (p : Sender) (off : BitVec 12) (size : BitVec 2) (w : Word)
  /-- BRIDGE_RESET (R173): BRIDGE_CONTROL written with RESET 1. -/
  | bridgeReset (p : Sender) (w : Word)
  /-- LOCK (R20): BRIDGE_CONTROL written with LOCK 1 and RESET 0. -/
  | lock (p : Sender) (w : Word)
  /-- PORT_RESET (R174): PORT_CONTROL written with PORT_RESET 1. -/
  | portReset (p : Sender) (w : Word)
  /-- REJOIN (R168): PORT_CONTROL written with REJOIN 1 and PORT_RESET 0. -/
  | rejoin (p : Sender) (w : Word)
  /-- VIEW_BASE_WRITE (R29). -/
  | viewBaseWrite (p : Sender) (w : Word)
  /-- VIEW_CONTROL_WRITE (R30, R32). -/
  | viewControlWrite (p : Sender) (w : Word)
  /-- SINGLE_INVALIDATION (R42): INVALIDATE written with ALL 0. -/
  | singleInvalidation (p : Sender) (w : Word)
  /-- INVALIDATE_ALL (R43): INVALIDATE written with ALL 1. -/
  | invalidateAll (p : Sender) (w : Word)
  /-- SWEEP_PROGRESS (R44) of port `x`'s cache: an internal event. -/
  | sweepProgress (x : Port)
  /-- SWEEP_END (R44) of port `x`'s cache: an internal event. -/
  | sweepEnd (x : Port)
  /-- PROBE (R47): PROBE_ADDR written. -/
  | probe (p : Sender) (w : Word)
  /-- DENY_RELEASE (R59). -/
  | denyRelease (p : Sender) (w : Word)
  /-- FAULT_RELEASE (R62). -/
  | faultRelease (p : Sender) (w : Word)
  /-- COUNTER_CLEAR (R66) of counter `n`. -/
  | counterClear (p : Sender) (n : Counter) (w : Word)
  /-- CONDUIT_CONFIG_WRITE (R72). -/
  | conduitConfigWrite (p : Sender) (r : CfgReg) (c : BitVec 4) (w : Word)
  /-- CONDUIT_ENABLE (R73): CFG_ENABLE written with ENABLE 1. -/
  | conduitEnable (p : Sender) (c : BitVec 4) (w : Word)
  /-- CONDUIT_DISABLE (R85): CFG_ENABLE written with ENABLE 0. -/
  | conduitDisable (p : Sender) (c : BitVec 4) (w : Word)
  /-- OPEN_WRITE (R96): CONDUIT_COMMAND written with OP 1. -/
  | openWrite (p : Sender) (w : Word)
  /-- COMMIT (R92): CONDUIT_COMMAND written with OP 2. -/
  | commit (p : Sender) (w : Word)
  /-- ABANDON (R94): CONDUIT_COMMAND written with OP 3. -/
  | abandon (p : Sender) (w : Word)
  /-- OPEN_READ (R97): CONDUIT_COMMAND written with OP 4. -/
  | openRead (p : Sender) (w : Word)
  /-- CONDUIT_RELEASE (R95): CONDUIT_COMMAND written with OP 5, the text's RELEASE. -/
  | conduitRelease (p : Sender) (w : Word)
  /-- RETURN (R97): CONDUIT_COMMAND written with OP 6. -/
  | returnSlot (p : Sender) (w : Word)
  /-- BAD_OP (R89): CONDUIT_COMMAND written with OP 0 or 7 to 15. -/
  | badOp (p : Sender) (w : Word)
  /-- COMMIT_NOTICE_CLEAR (R104). -/
  | commitNoticeClear (p : Sender) (w : Word)
  /-- DRAIN_NOTICE_CLEAR (R104). -/
  | drainNoticeClear (p : Sender) (w : Word)
  /-- RESET_NOTICE_CLEAR (R104). -/
  | resetNoticeClear (p : Sender) (w : Word)
  /-- CANCEL (R114): TOKEN_COMMAND written with OP 0. -/
  | cancel (p : Sender) (w : Word)
  /-- ACQUIRE (R112): TOKEN_COMMAND written with OP 1. -/
  | acquire (p : Sender) (w : Word)
  /-- TOKEN_RELEASE (R113): TOKEN_COMMAND written with OP 2, the text's RELEASE. -/
  | tokenRelease (p : Sender) (w : Word)
  /-- FORCE_RELEASE (R115): TOKEN_COMMAND written with OP 3. -/
  | forceRelease (p : Sender) (w : Word)
  /-- TOKEN_NOTICE_CLEAR (R116). -/
  | tokenNoticeClear (p : Sender) (w : Word)
  /-- RING (R118): DOORBELL_OUT written. -/
  | ring (p : Sender) (w : Word)
  /-- DOORBELL_CLEAR (R119): DOORBELL_IN written. -/
  | doorbellClear (p : Sender) (w : Word)
  /-- LINE_PENDING_CLEAR (R125): LINE_PENDING written. -/
  | linePendingClear (p : Sender) (w : Word)
  /-- ROUTE_WRITE (R127): ROUTE_LO (`hi = false`) or ROUTE_HI (`hi = true`) written. -/
  | routeWrite (p : Sender) (hi : Bool) (w : Word)
  /-- SOFT_SET (R129): TIER_CONTROL written with some SOFT_SET bit 1. -/
  | softSet (p : Sender) (w : Word)
  /-- SOFT_CLR (R129): TIER_CONTROL written with no SOFT_SET bit and some SOFT_CLR bit 1. -/
  | softClr (p : Sender) (w : Word)
  /-- CLAIM (R132): the CLAIM register read. -/
  | claim (p : Sender)
  /-- DISMISS (R133). -/
  | dismiss (p : Sender) (w : Word)
  /-- TIME_LO_READ (R140): the TIME_LO register read. -/
  | timeLoRead (p : Sender)
  /-- PRESCALE_WRITE (R139). -/
  | prescaleWrite (p : Sender) (w : Word)
  /-- LOAD (R141): TIME_CONTROL written with LOAD 1. -/
  | load (p : Sender) (w : Word)
  /-- CLR_REFUSED (R141): TIME_CONTROL written with CLR_REFUSED 1 and LOAD 0. -/
  | clrRefused (p : Sender) (w : Word)
  /-- TICK (R138): an internal event. -/
  | tick
  /-- TIME_LOAD_APPLY (R142): the tick that applies a pending load, an internal event. -/
  | timeLoadApply
  /-- LIVE_WARN (R165) of port `x`: an internal event. -/
  | liveWarn (x : Port)
  /-- EXPIRY (R166) of port `x`: an internal event. -/
  | expiry (x : Port)
  /-- CADENCE_TICK (R147) of cadence `k`: an internal event. -/
  | cadenceTick (k : BitVec 2)
  /-- PULSE_END (R148) of cadence `k`: an internal event. -/
  | pulseEnd (k : BitVec 2)
  /-- CAD_PERIOD_STAGE_WRITE (R144). -/
  | cadPeriodStageWrite (p : Sender) (k : BitVec 2) (w : Word)
  /-- CAD_WIDTH_STAGE_WRITE (R144). -/
  | cadWidthStageWrite (p : Sender) (k : BitVec 2) (w : Word)
  /-- ARM (R145): CAD_COMMAND written with ARM 1. -/
  | arm (p : Sender) (k : BitVec 2) (w : Word)
  /-- STOP (R146): CAD_COMMAND written with STOP 1 and ARM 0. -/
  | stop (p : Sender) (k : BitVec 2) (w : Word)
  /-- CLR_CMD_ERR (R151): CAD_COMMAND written with CLR_CMD_ERR 1, ARM 0 and STOP 0. -/
  | clrCmdErr (p : Sender) (k : BitVec 2) (w : Word)
  /-- CLR_LATE (R151): CAD_COMMAND written with CLR_LATE 1 and no bit of an earlier row. -/
  | clrLate (p : Sender) (k : BitVec 2) (w : Word)
  /-- CLR_OVERLAP (R151): CAD_COMMAND written with CLR_OVERLAP 1 and no bit of an earlier row. -/
  | clrOverlap (p : Sender) (k : BitVec 2) (w : Word)
  /-- CLR_ACK_OVERRUN (R151): CAD_COMMAND written with CLR_ACK_OVERRUN 1 and no bit of an earlier row. -/
  | clrAckOverrun (p : Sender) (k : BitVec 2) (w : Word)
  /-- CAD_ACK (R149). -/
  | cadAck (p : Sender) (k : BitVec 2) (w : Word)
  /-- CUTOFF_DETECTION (R152): an internal event. -/
  | cutoffDetection
  /-- SOFT (R152): CUTOFF_TRIGGER written with SOFT 1. -/
  | soft (p : Sender) (w : Word)
  /-- CLEAR (R153): CUTOFF_CONTROL written with CLEAR 1. -/
  | clear (p : Sender) (w : Word)
  /-- CUTOFF_CONTROL_WRITE (R21): CUTOFF_CONTROL written with CLEAR 0. -/
  | cutoffControlWrite (p : Sender) (w : Word)
  /-- CAP_CONFIG_WRITE (R155). -/
  | capConfigWrite (p : Sender) (k : BitVec 2) (w : Word)
  /-- CAPTURE_EDGE (R156): the level of CAP_IN[`k`] changes and the new sample shows the edge. -/
  | captureEdge (k : BitVec 2) (e : PinEdge)
  /-- CAP_TIME_LO_READ (R159): the CAP_TIME_LO register of channel `k` read. -/
  | capTimeLoRead (p : Sender) (k : BitVec 2)
  /-- LIVE_LIMIT_WRITE (R162) of port `y`'s limit. -/
  | liveLimitWrite (p : Sender) (y : Port) (w : Word)
  /-- PIN_RESET (R170): RESET_N sampled low. -/
  | pinReset
  /-- INITIALIZATION (R171): RESET_N sampled high after pin reset. -/
  | initialization
  /-- INITIALIZATION_END (R172): an internal event. -/
  | initializationEnd
  /-- REGISTER_READ (R22): a read in the register window that is no row of its own. -/
  | registerRead (p : Sender) (off : BitVec 12) (size : BitVec 2)
  /-- CUTOFF_PIN_LEVEL_CHANGE (R152): the sampled level of CUTOFF_N becomes that of `level`. -/
  | cutoffPinLevelChange (level : PinLevel)
  /-- UNMATCHED_EDGE (R156): a level change on CAP_IN[`k`] that the channel does not select. -/
  | unmatchedEdge (k : BitVec 2) (e : PinEdge)
  deriving DecidableEq, Repr

end Sys2Proof
end

