-- ==== Sys2Proof/Decode.lean ====
section
/-! DEFINITION. How commands and link transactions spell each other: the register map (Table 1.3), the partition of
the port address space (Table 1.2), the transaction that a host command presents, and the command that a transaction
is. The opcode table gives its rows no bits, so `decodeTableWord` answers none. -/

namespace Sys2Proof

open Sys2Proof.Machine (bit withBits)

/-! ## The register map -/

/-- The part's own registers, and those of the views (chapters 1, 2, 10 and 11 of Table 1.3). -/
def partRegs : List (Nat × Reg) :=
  [(0x000, .ident), (0x004, .bridgeStatus), (0x008, .bridgeControl), (0x00C, .portControl), (0x010, .liveLimit .A),
   (0x014, .liveLimit .B), (0x018, .liveStatus), (0x040, .viewBase), (0x044, .viewControl), (0x048, .invalidate),
   (0x04C, .probeAddr), (0x050, .probeResult), (0x054, .probePhys), (0x058, .cacheStatus)]

/-- The registers of the record units (chapter 3 of Table 1.3). -/
def recordRegs : List (Nat × Reg) :=
  [(0x080, .denyInfo), (0x084, .denyAddr), (0x088, .denyTime), (0x08C, .denyRelease), (0x090, .faultInfo),
   (0x094, .faultAddr), (0x098, .faultTime), (0x09C, .faultRelease), (0x0A0, .counter .deny), (0x0A4, .counter .fault),
   (0x0A8, .counter .refuse), (0x0AC, .counter .loss)]

/-- The registers of the event units, doorbells and tokens (chapters 6 and 7 of Table 1.3). -/
def eventRegs : List (Nat × Reg) :=
  [(0x100, .linePending), (0x104, .lineEnable), (0x108, .routeLo), (0x10C, .routeHi), (0x110, .tierControl),
   (0x114, .tierStatus), (0x118, .claim), (0x11C, .dismiss), (0x180, .doorbellOut), (0x184, .doorbellIn),
   (0x188, .doorbellMask), (0x1C0, .tokenCommand), (0x1C4, .tokenResult), (0x1C8, .tokenState), (0x1CC, .tokenWait),
   (0x1D0, .tokenNotice)]

/-- The banked conduit registers, the timebase and the cutoff unit (chapters 5 and 8 of Table 1.3). -/
def flowRegs : List (Nat × Reg) :=
  [(0x200, .conduitCommand), (0x204, .conduitResult), (0x208, .slotInfoSeq), (0x20C, .slotInfoTimeLo),
   (0x210, .slotInfoTimeHi), (0x214, .commitNotice), (0x218, .drainNotice), (0x21C, .resetNotice), (0x600, .timeLo),
   (0x604, .timeHi), (0x608, .timeSetLo), (0x60C, .timeSetHi), (0x610, .prescale), (0x614, .timeControl),
   (0x618, .timeStatus), (0x900, .cutoffControl), (0x904, .cutoffTrigger), (0x908, .cutoffStatus)]

/-- The registers that exist at one fixed offset, with that offset (Table 1.3). -/
def fixedRegs : List (Nat × Reg) := partRegs ++ recordRegs ++ eventRegs ++ flowRegs

/-- The registers of conduit `c`, at 400h + 20h×c (Table 1.3). -/
def conduitRegs (c : BitVec 4) : List (Nat × Reg) :=
  [(0x00, .cfg .mode c), (0x04, .cfg .base c), (0x08, .cfg .slot c), (0x0C, .cfgEnable c), (0x10, .cfgStatus c),
   (0x14, .cfgOccupancy c)]

/-- The registers of cadence `k`, at 700h + 40h×k (Table 1.3). -/
def cadenceRegs (k : BitVec 2) : List (Nat × Reg) :=
  [(0x00, .cadConfig k), (0x04, .cadStartLo k), (0x08, .cadStartHi k), (0x0C, .cadPeriod k), (0x10, .cadPeriodStage k),
   (0x14, .cadWidth k), (0x18, .cadWidthStage k), (0x1C, .cadCommand k), (0x20, .cadStatus k), (0x24, .cadNextLo k),
   (0x28, .cadNextHi k), (0x2C, .cadAck k)]

/-- The registers of capture channel `k`, at 800h + 20h×k (Table 1.3). -/
def captureRegs (k : BitVec 2) : List (Nat × Reg) :=
  [(0x00, .capConfig k), (0x04, .capInfo k), (0x08, .capTimeLo k), (0x0C, .capTimeHi k)]

/-- The register assigned to an offset, or none (R14). -/
def Reg.ofOffset (off : BitVec 12) : Option Reg :=
  if off.extractLsb' 9 3 = 2#3 then (conduitRegs (off.extractLsb' 5 4)).lookup (off.extractLsb' 0 5).toNat
  else if off.extractLsb' 8 4 = 7#4 then (cadenceRegs (off.extractLsb' 6 2)).lookup (off.extractLsb' 0 6).toNat
  else if off.extractLsb' 7 5 = 16#5 then (captureRegs (off.extractLsb' 5 2)).lookup (off.extractLsb' 0 5).toNat
  else fixedRegs.lookup off.toNat

/-- Where a register of an indexed group stands: its place in the group's list of registers. -/
def offsetIn (regs : List (Nat × Reg)) (r : Reg) : Nat :=
  ((regs.find? (fun e => e.2 == r)).map (fun e => e.1)).getD 0

/-- The offset of a register in the window (Table 1.3). -/
def Reg.offset (r : Reg) : BitVec 12 :=
  match r with
  | .cfg _ c | .cfgEnable c | .cfgStatus c | .cfgOccupancy c =>
    2#3 ++ (c ++ BitVec.ofNat 5 (offsetIn (conduitRegs c) r))
  | .cadConfig k | .cadStartLo k | .cadStartHi k | .cadPeriod k | .cadPeriodStage k | .cadWidth k | .cadWidthStage k
  | .cadCommand k | .cadStatus k | .cadNextLo k | .cadNextHi k | .cadAck k =>
    7#4 ++ (k ++ BitVec.ofNat 6 (offsetIn (cadenceRegs k) r))
  | .capConfig k | .capInfo k | .capTimeLo k | .capTimeHi k =>
    16#5 ++ (k ++ BitVec.ofNat 5 (offsetIn (captureRegs k) r))
  | _ => BitVec.ofNat 12 (offsetIn fixedRegs r)

/-! ## The address partition -/

/-- The space a port address selects (Table 1.2). -/
inductive Space where
  | window (off : BitVec 12)
  | view (off : BitVec 20)
  | unmapped
  deriving DecidableEq, Repr

def space (a : PortAddr) : Space :=
  if a.extractLsb' 12 12 = 0 then .window (a.extractLsb' 0 12)
  else if a.extractLsb' 20 4 = 1 then .view (a.extractLsb' 0 20)
  else .unmapped

/-- The port address of an offset in the register window. -/
def windowAddr (off : BitVec 12) : PortAddr := 0#12 ++ off

/-- The port address of an offset in the view space. -/
def viewAddr (off : BitVec 20) : PortAddr := 1#4 ++ off

/-- The aligned 4-byte write of `w` to a register. -/
def writeTo (r : Reg) (w : Word) : Txn := { addr := windowAddr r.offset, size := 2, op := .write w }

/-- The aligned 4-byte read of a register. -/
def readOf (r : Reg) : Txn := { addr := windowAddr r.offset, size := 2, op := .read }

/-! ## The written words of the rows: the bits that name a row, in a word whose other bits are free -/

/-- A CONDUIT_COMMAND word with OP `op` (Table 5.1). -/
def commandWord (op : BitVec 4) (w : Word) : Word := withBits w 0xF#32 (op.setWidth 32)

/-- OP names no operation (Table 5.2): 0 or 7 to 15. -/
def isBadOp (op : BitVec 4) : Bool := op == 0 || decide (7 ≤ op.toNat)

/-- A CONDUIT_COMMAND word whose OP names no operation: OP is taken as written when it names none, and as 0 else. -/
def badOpWord (w : Word) : Word := if isBadOp (w.extractLsb' 0 4) then w else commandWord 0 w

/-- A TOKEN_COMMAND word with OP `op` (Table 6.1). -/
def tokenWord (op : BitVec 2) (w : Word) : Word := withBits w 0x3#32 (op.setWidth 32)

/-- A word whose bits of `ones` are 1 and whose bits of `zeros` are 0. -/
def fixedWord (ones zeros w : Word) : Word := withBits w (ones ||| zeros) ones

/-! ## From a command to the transaction it presents -/

/-- Who presents a command and the transaction presented, or none for an internal event. -/
def Instr.request : Instr → Option (Sender × Txn)
  | .viewAccess p off size op => some (p, { addr := viewAddr off, size := size, op := op })
  | .unmappedAccess p t => some (p, t)
  | .registerWrite p off size w => some (p, { addr := windowAddr off, size := size, op := .write w })
  | .registerRead p off size => some (p, { addr := windowAddr off, size := size, op := .read })
  | .bridgeReset p w => some (p, writeTo .bridgeControl (fixedWord 1 0 w))
  | .lock p w => some (p, writeTo .bridgeControl (fixedWord 2 1 w))
  | .portReset p w => some (p, writeTo .portControl (fixedWord 1 0 w))
  | .rejoin p w => some (p, writeTo .portControl (fixedWord 2 1 w))
  | .viewBaseWrite p w => some (p, writeTo .viewBase w)
  | .viewControlWrite p w => some (p, writeTo .viewControl w)
  | .singleInvalidation p w => some (p, writeTo .invalidate (fixedWord 0 0x80000000 w))
  | .invalidateAll p w => some (p, writeTo .invalidate (fixedWord 0x80000000 0 w))
  | .probe p w => some (p, writeTo .probeAddr w)
  | .denyRelease p w => some (p, writeTo .denyRelease w)
  | .faultRelease p w => some (p, writeTo .faultRelease w)
  | .counterClear p n w => some (p, writeTo (.counter n) w)
  | .conduitConfigWrite p r c w => some (p, writeTo (.cfg r c) w)
  | .conduitEnable p c w => some (p, writeTo (.cfgEnable c) (fixedWord 1 0 w))
  | .conduitDisable p c w => some (p, writeTo (.cfgEnable c) (fixedWord 0 1 w))
  | .openWrite p w => some (p, writeTo .conduitCommand (commandWord 1 w))
  | .commit p w => some (p, writeTo .conduitCommand (commandWord 2 w))
  | .abandon p w => some (p, writeTo .conduitCommand (commandWord 3 w))
  | .openRead p w => some (p, writeTo .conduitCommand (commandWord 4 w))
  | .conduitRelease p w => some (p, writeTo .conduitCommand (commandWord 5 w))
  | .returnSlot p w => some (p, writeTo .conduitCommand (commandWord 6 w))
  | .badOp p w => some (p, writeTo .conduitCommand (badOpWord w))
  | .commitNoticeClear p w => some (p, writeTo .commitNotice w)
  | .drainNoticeClear p w => some (p, writeTo .drainNotice w)
  | .resetNoticeClear p w => some (p, writeTo .resetNotice w)
  | .cancel p w => some (p, writeTo .tokenCommand (tokenWord 0 w))
  | .acquire p w => some (p, writeTo .tokenCommand (tokenWord 1 w))
  | .tokenRelease p w => some (p, writeTo .tokenCommand (tokenWord 2 w))
  | .forceRelease p w => some (p, writeTo .tokenCommand (tokenWord 3 w))
  | .tokenNoticeClear p w => some (p, writeTo .tokenNotice w)
  | .ring p w => some (p, writeTo .doorbellOut w)
  | .doorbellClear p w => some (p, writeTo .doorbellIn w)
  | .linePendingClear p w => some (p, writeTo .linePending w)
  | .routeWrite p hi w => some (p, writeTo (if hi then .routeHi else .routeLo) w)
  | .softSet p w => some (p, writeTo .tierControl w)
  | .softClr p w => some (p, writeTo .tierControl (fixedWord 0 0xF00 w))
  | .claim p => some (p, readOf .claim)
  | .dismiss p w => some (p, writeTo .dismiss w)
  | .timeLoRead p => some (p, readOf .timeLo)
  | .prescaleWrite p w => some (p, writeTo .prescale w)
  | .load p w => some (p, writeTo .timeControl (fixedWord 1 0 w))
  | .clrRefused p w => some (p, writeTo .timeControl (fixedWord 2 1 w))
  | .cadPeriodStageWrite p k w => some (p, writeTo (.cadPeriodStage k) w)
  | .cadWidthStageWrite p k w => some (p, writeTo (.cadWidthStage k) w)
  | .arm p k w => some (p, writeTo (.cadCommand k) (fixedWord 1 0 w))
  | .stop p k w => some (p, writeTo (.cadCommand k) (fixedWord 2 1 w))
  | .clrCmdErr p k w => some (p, writeTo (.cadCommand k) (fixedWord 0x100 0x003 w))
  | .clrLate p k w => some (p, writeTo (.cadCommand k) (fixedWord 0x200 0x103 w))
  | .clrOverlap p k w => some (p, writeTo (.cadCommand k) (fixedWord 0x400 0x303 w))
  | .clrAckOverrun p k w => some (p, writeTo (.cadCommand k) (fixedWord 0x800 0x703 w))
  | .cadAck p k w => some (p, writeTo (.cadAck k) w)
  | .soft p w => some (p, writeTo .cutoffTrigger (fixedWord 1 0 w))
  | .clear p w => some (p, writeTo .cutoffControl (fixedWord 2 0 w))
  | .cutoffControlWrite p w => some (p, writeTo .cutoffControl (fixedWord 0 2 w))
  | .capConfigWrite p k w => some (p, writeTo (.capConfig k) w)
  | .capTimeLoRead p k => some (p, readOf (.capTimeLo k))
  | .liveLimitWrite p y w => some (p, writeTo (.liveLimit y) w)
  | .sweepProgress _ | .sweepEnd _ | .tick | .timeLoadApply | .liveWarn _ | .expiry _ | .cadenceTick _ | .pulseEnd _
  | .cutoffDetection | .captureEdge _ _ | .pinReset | .initialization | .initializationEnd
  | .cutoffPinLevelChange _ | .unmatchedEdge _ _ => none

/-! ## From a transaction to the command it is -/

/-- The row that the aligned 4-byte write of `w` to a register is, where the register has rows of its own. -/
def rowOfWrite (p : Sender) (r : Reg) (w : Word) : Option Instr :=
  match r with
  | .bridgeControl => if bit w 0 then some (.bridgeReset p w) else if bit w 1 then some (.lock p w) else none
  | .portControl => if bit w 0 then some (.portReset p w) else if bit w 1 then some (.rejoin p w) else none
  | .liveLimit y => some (.liveLimitWrite p y w)
  | .viewBase => some (.viewBaseWrite p w)
  | .viewControl => some (.viewControlWrite p w)
  | .invalidate => if bit w 31 then some (.invalidateAll p w) else some (.singleInvalidation p w)
  | .probeAddr => some (.probe p w)
  | .denyRelease => some (.denyRelease p w)
  | .faultRelease => some (.faultRelease p w)
  | .counter n => some (.counterClear p n w)
  | .linePending => some (.linePendingClear p w)
  | .routeLo => some (.routeWrite p false w)
  | .routeHi => some (.routeWrite p true w)
  | .tierControl =>
    if w.extractLsb' 8 4 ≠ 0 then some (.softSet p w)
    else if w.extractLsb' 12 4 ≠ 0 then some (.softClr p w) else none
  | .dismiss => some (.dismiss p w)
  | .doorbellOut => some (.ring p w)
  | .doorbellIn => some (.doorbellClear p w)
  | .tokenCommand =>
    match w.extractLsb' 0 2 with
    | 0#2 => some (.cancel p w)
    | 1#2 => some (.acquire p w)
    | 2#2 => some (.tokenRelease p w)
    | _ => some (.forceRelease p w)
  | .tokenNotice => some (.tokenNoticeClear p w)
  | .conduitCommand =>
    match w.extractLsb' 0 4 with
    | 1#4 => some (.openWrite p w)
    | 2#4 => some (.commit p w)
    | 3#4 => some (.abandon p w)
    | 4#4 => some (.openRead p w)
    | 5#4 => some (.conduitRelease p w)
    | 6#4 => some (.returnSlot p w)
    | _ => some (.badOp p w)
  | .commitNotice => some (.commitNoticeClear p w)
  | .drainNotice => some (.drainNoticeClear p w)
  | .resetNotice => some (.resetNoticeClear p w)
  | .cfg r c => some (.conduitConfigWrite p r c w)
  | .cfgEnable c => if bit w 0 then some (.conduitEnable p c w) else some (.conduitDisable p c w)
  | .prescale => some (.prescaleWrite p w)
  | .timeControl => if bit w 0 then some (.load p w) else if bit w 1 then some (.clrRefused p w) else none
  | .cadPeriodStage k => some (.cadPeriodStageWrite p k w)
  | .cadWidthStage k => some (.cadWidthStageWrite p k w)
  | .cadCommand k =>
    if bit w 0 then some (.arm p k w) else if bit w 1 then some (.stop p k w)
    else if bit w 8 then some (.clrCmdErr p k w) else if bit w 9 then some (.clrLate p k w)
    else if bit w 10 then some (.clrOverlap p k w) else if bit w 11 then some (.clrAckOverrun p k w) else none
  | .cadAck k => some (.cadAck p k w)
  | .capConfig k => some (.capConfigWrite p k w)
  | .cutoffControl => if bit w 1 then some (.clear p w) else some (.cutoffControlWrite p w)
  | .cutoffTrigger => if bit w 0 then some (.soft p w) else none
  | _ => none

/-- The row that the aligned 4-byte read of a register is, where the read acts. -/
def rowOfRead (p : Sender) (r : Reg) : Option Instr :=
  match r with
  | .claim => some (.claim p)
  | .timeLo => some (.timeLoRead p)
  | .capTimeLo k => some (.capTimeLoRead p k)
  | _ => none

/-- The row of its own that a window transaction is, if it is one: a 4-byte access of an assigned register. -/
def ownRow (p : Sender) (off : BitVec 12) (size : BitVec 2) (op : BusOp) : Option Instr :=
  if size = 2 then
    match Reg.ofOffset off, op with
    | some r, .write w => rowOfWrite p r w
    | some r, .read => rowOfRead p r
    | none, _ => none
  else none

/-- The host command that a transaction presented by `p` is. -/
def Instr.ofTxn (p : Sender) (t : Txn) : Instr :=
  match space t.addr with
  | .view off => .viewAccess p off t.size t.op
  | .unmapped => .unmappedAccess p t
  | .window off =>
    (ownRow p off t.size t.op).getD
      (match t.op with
       | .write w => .registerWrite p off t.size w
       | .read => .registerRead p off t.size)

/-- The command that the bits of an opcode-table row spell. The table gives no row any bits, so there is none. -/
def decodeTableWord (_nbits _w : Nat) : Option Instr := none

end Sys2Proof
end

