-- ==== Sys2Proof/Config.lean ====
section
/-! DEFINITION. What the manual fixes as constants of the silicon, and the one value it leaves undefined. -/

namespace Sys2Proof

/-- What the IDENT register reads in every state (R15). -/
def Config.ident : BitVec 32 := 0x00566002#32

/-- How many core clocks initialization lasts, one store word cleared at each (R171). -/
def Config.initClocks : Nat := 65536

/-- FREE VALUE (log 3). The store's contents under the n-th pin reset, which R170 calls undefined until
initialization has cleared them. There is no body: nothing is known of the list. -/
opaque Config.undefinedStore : Nat → List Host.Cell

end Sys2Proof
end

