-- ==== Sys2Proof/Machine/State.lean ====
section
/-! DEFINITION. The state of the DX-60 as plain data, block by block (Table 0.1), the reasons a step can stop, and
`State.reset`, every item at its pin-reset value (Table 11.1). Values that the state determines (event lines, tier
eligibility, slot states, output levels) are computed in Flags.lean and Conduit.lean and not stored twice. -/

namespace Sys2Proof.Machine

/-- The reasons a step stops with a fault. The manual gives every command an effect in every state, so there is none:
a transaction answered FAULT (R4) is a next state in which the port link carries that answer. -/
inductive Fault : Type
  deriving DecidableEq, Repr

/-- The reasons a step is refused. -/
inductive Refusal where
  /-- Raised by an arm of `exec` for a command that has no meaning yet, and by nothing else. Safe: the model stops. -/
  | notModelled (mnemonic : String)
  deriving DecidableEq, Repr

/-- One value per port: the form of every banked register (R12). -/
structure PerPort (α : Type) where
  a : α
  b : α
  deriving DecidableEq, Repr

def PerPort.get {α : Type} (p : PerPort α) : Port → α
  | .A => p.a
  | .B => p.b

def PerPort.set {α : Type} (p : PerPort α) (x : Port) (v : α) : PerPort α :=
  match x with
  | .A => { p with a := v }
  | .B => { p with b := v }

/-- A fixed number of like things, indexed by a field of `n` bits: conduits, tokens, cadences, cache entries. -/
abbrev Table (n : Nat) (α : Type) := Vector α (2 ^ n)

def Table.get {n : Nat} {α : Type} (t : Table n α) (i : BitVec n) : α := t[i.toNat]'i.isLt

def Table.set {n : Nat} {α : Type} (t : Table n α) (i : BitVec n) (v : α) : Table n α := Vector.set t i.toNat v i.isLt

/-- The table that holds `v` everywhere. -/
def Table.all {α : Type} (n : Nat) (v : α) : Table n α := Vector.replicate (2 ^ n) v

/-! ## The port links (chapter 1) -/

/-- The response codes of xRESP (Table 1.1). The value 3 is never driven (R1). -/
inductive Resp where
  | okay
  | deny
  | fault
  deriving DecidableEq, Repr

/-- What an acknowledgement carries: xRESP and xRDATA. -/
structure Response where
  resp  : Resp
  rdata : Word
  deriving DecidableEq, Repr

/-- The state of one port link (R1): no transaction outstanding; one taken at this instant, whose acknowledgement
follows at the next clock; or xACK asserted at this clock with the response. -/
inductive Link where
  | free
  | taken (r : Response)
  | acking (r : Response)
  deriving DecidableEq, Repr

/-- Whether RESET_N is held low (R170), initialization has cleared `cleared` words of the store (R171), or the part
operates (R172, R177). -/
inductive Phase where
  | held
  | init (cleared : Nat)
  | run
  deriving DecidableEq, Repr

/-! ## Views (chapter 2) -/

/-- A valid view cache entry (Table 2.5). An entry whose VALID is 0 is `none`. -/
structure CacheEntry where
  tag    : BitVec 4
  kind   : Bool
  access : BitVec 2
  target : Byte
  deriving DecidableEq, Repr

/-- The contents of PROBE_RESULT below its VALID bit (Table 2.9). -/
structure ProbeResult where
  outcome : BitVec 4
  hit     : Bool
  kind    : Bool
  access  : BitVec 2
  target  : Byte
  deriving DecidableEq, Repr

/-- One port's view unit. `sweep = some i` means that a sweep runs and entry `i` is the next it invalidates, so that
`i` entries are already invalid (R44, R46). `probeResult = none` is VALID 0. -/
structure ViewUnit where
  base        : BitVec 6
  enable      : Bool
  direct      : Bool
  cache       : Table 6 (Option CacheEntry)
  sweep       : Option (BitVec 6)
  probeAddr   : PortAddr
  probeWrite  : Bool
  probeResult : Option ProbeResult
  probePhys   : StoreAddr
  deriving DecidableEq, Repr

/-! ## Records and counters (chapter 3) -/

/-- The deny reasons of Table 3.1. -/
inductive DenyReason where
  | noAccess | readOnly | guarded | malformed | conduitOff | absent | noSlot | direction | beyondSlot
  deriving DecidableEq, Repr

/-- The fault reasons of Table 3.2. -/
inductive FaultReason where
  | unmapped | misaligned | regWidth | regNone | privilege | locked | configBusy | initializing | viewOff | doubleDeny
  deriving DecidableEq, Repr

/-- The items of a LATCHED deny record (Table 3.4). -/
structure DenyRecord where
  write   : Bool
  size    : BitVec 2
  reason  : DenyReason
  access  : BitVec 2
  conduit : BitVec 4
  addr    : PortAddr
  time    : Word
  deriving DecidableEq, Repr

/-- The items of a LATCHED fault record (Table 3.7). -/
structure FaultRecord where
  write  : Bool
  size   : BitVec 2
  reason : FaultReason
  addr   : PortAddr
  time   : Word
  lost   : Bool
  deriving DecidableEq, Repr

/-- One port's record unit: `none` is an EMPTY record, whose items all read 0. -/
structure Records where
  deny      : Option DenyRecord
  fault     : Option FaultRecord
  cntDeny   : BitVec 8
  cntFault  : BitVec 8
  cntRefuse : BitVec 8
  cntLoss   : BitVec 8
  deriving DecidableEq, Repr

/-! ## Conduits (chapters 4 and 5) -/

/-- The result codes of a conduit command (Table 5.4). -/
inductive ConduitCode where
  | none | done | stale | empty | full | notOwner | notOpen | alreadyOpen | badLength | disabled | absent | badOp
  deriving DecidableEq, Repr

/-- The CONDUIT_RESULT register (Table 5.3). -/
structure ConduitResult where
  code    : ConduitCode
  conduit : BitVec 4
  op      : BitVec 4
  slot    : BitVec 3
  deriving DecidableEq, Repr

/-- A slot's descriptor (R76), and also what the SLOT_INFO registers show (Table 5.5). -/
structure Descriptor where
  seq    : BitVec 16
  length : BitVec 11
  time   : Time
  deriving DecidableEq, Repr

/-- One port's banked conduit registers. -/
structure ConduitPort where
  result       : ConduitResult
  info         : Descriptor
  commitNotice : BitVec 16
  drainNotice  : BitVec 16
  resetNotice  : BitVec 16
  deriving DecidableEq, Repr

/-- One conduit: its configuration (Tables 4.1, 4.2), its status, and the records of R77. The state of a slot
(Table 4.4) is determined by these records and is computed, not stored. `lastOpened = none` is the invalid record. -/
structure Conduit where
  mode        : BitVec 2
  producer    : Port
  depth       : BitVec 3
  timed       : Bool
  cadence     : BitVec 2
  holdOnLoss  : Bool
  base        : BitVec 14
  size        : BitVec 6
  enabled     : Bool
  configError : BitVec 2
  descriptors : Table 3 Descriptor
  visible     : List (BitVec 3)
  ready       : List (BitVec 3)
  filling     : Option (BitVec 3)
  reading     : Option (BitVec 3)
  seq         : BitVec 16
  lastOpened  : Option (BitVec 16)
  cursor      : BitVec 3
  deriving DecidableEq, Repr

/-! ## Tokens and doorbells (chapter 6) -/

/-- A token: its holder and the waiting flags WAIT_A and WAIT_B (R110). -/
structure Token where
  holder : Option Port
  wait   : PerPort Bool
  deriving DecidableEq, Repr

/-- The result codes of a token command (Table 6.4). -/
inductive TokenCode where
  | none | granted | waiting | released | cancelled | heldAlready | freeAlready | notHolder | notWaiting | notPermitted
  | absent
  deriving DecidableEq, Repr

/-- The TOKEN_RESULT register (Table 6.3). -/
structure TokenResult where
  code  : TokenCode
  token : BitVec 4
  op    : BitVec 2
  deriving DecidableEq, Repr

/-- One port's banked token registers. Its waiting flags, the TOKEN_WAIT register, lie in the tokens. -/
structure TokenPort where
  result : TokenResult
  notice : BitVec 16
  deriving DecidableEq, Repr

/-- One port's incoming doorbells and their mask (Table 6.7). -/
structure Bells where
  incoming : BitVec 16
  mask     : BitVec 16
  deriving DecidableEq, Repr

/-! ## Event units (chapter 7) -/

/-- One port's event unit. `latches` holds the latches of the latched lines at their line numbers; tier `n` is bit
`n - 1` of `tierEnable`, `soft` and `inService`. -/
structure EventUnit where
  latches    : BitVec 16
  lineEnable : BitVec 16
  routeLo    : Word
  routeHi    : Word
  ge         : Bool
  tierEnable : BitVec 4
  soft       : BitVec 4
  inService  : BitVec 4
  deriving DecidableEq, Repr

/-! ## Liveness (chapter 10) -/

inductive Presence where
  | active
  | absent
  deriving DecidableEq, Repr

inductive LastCause where
  | nothing
  | expired
  | reset
  deriving DecidableEq, Repr

/-- One port's liveness monitor (R162). -/
structure Monitor where
  limit     : BitVec 16
  count     : BitVec 16
  phase     : BitVec 8
  presence  : Presence
  warned    : Bool
  lastCause : LastCause
  deriving DecidableEq, Repr

/-! ## What R11 needs -/

/-- The model's own record of what was set in a port's clearable flags since the current instant began: a clear at
this instant does not reach these settings (R11). `loss` counts the increments of CNT_LOSS at this instant. -/
structure Fresh where
  commit : BitVec 16
  drain  : BitVec 16
  reset  : BitVec 16
  token  : BitVec 16
  bell   : BitVec 16
  latch  : BitVec 16
  loss   : BitVec 8
  deriving DecidableEq, Repr

/-- Everything the part holds once per port, apart from the link. -/
structure Bank where
  view       : ViewUnit
  records    : Records
  conduits   : ConduitPort
  tokens     : TokenPort
  bells      : Bells
  events     : EventUnit
  timeShadow : BitVec 16
  capShadow  : Table 2 (BitVec 16)
  monitor    : Monitor
  fresh      : Fresh
  deriving DecidableEq, Repr

/-! ## Timebase, cadences, cutoff, captures (chapters 8 and 9) -/

/-- The timebase. `left` is the number of core clocks until the interval in progress ends with a tick (R139).
`pendingLoad = some v` is LOAD_PENDING 1 with the pending value `v` (R141). -/
structure Timebase where
  time        : Time
  left        : Nat
  prescale    : BitVec 8
  setValue    : Time
  pendingLoad : Option Time
  loadRefused : Bool
  deriving DecidableEq, Repr

/-- The states of Table 8.2. -/
inductive CadState where
  | idle
  | armed
  | running
  | stopped
  deriving DecidableEq, Repr

/-- The pulse of a cadence's output: none (inactive), counted with its remaining count, or acknowledged (R148, R149). -/
inductive Pulse where
  | off
  | counted (left : BitVec 16)
  | acknowledged
  deriving DecidableEq, Repr

/-- One cadence unit (R143). The last two fields are the model's own, for R11: OVERLAP or ACK_OVERRUN was set at the
current instant. -/
structure Cadence where
  outEn           : Bool
  polarity        : Bool
  start           : Time
  period          : Word
  periodStage     : Word
  periodStaged    : Bool
  width           : BitVec 16
  widthStage      : BitVec 16
  widthStaged     : Bool
  state           : CadState
  next            : Time
  ticks           : BitVec 16
  pulse           : Pulse
  cmdErr          : Bool
  late            : Bool
  overlap         : Bool
  ackOverrun      : Bool
  freshOverlap    : Bool
  freshAckOverrun : Bool
  deriving DecidableEq, Repr

inductive CutoffCause where
  | nothing
  | pin
  | soft
  deriving DecidableEq, Repr

/-- The cutoff unit: state, CAUSE, CLEAR_REFUSED, PIN_EN, and the two most recent samples of CUTOFF_N (R152). -/
structure Cutoff where
  active       : Bool
  cause        : CutoffCause
  clearRefused : Bool
  pinEn        : Bool
  sample       : Bool
  previous     : Bool
  deriving DecidableEq, Repr

inductive CapCause where
  | nothing
  | rising
  | falling
  | internal
  deriving DecidableEq, Repr

/-- One capture channel: CAP_CONFIG, the capture record (R155), and the most recent sample of CAP_IN[k], none before
the first (R156). -/
structure Capture where
  source  : BitVec 2
  edge    : BitVec 2
  mode    : Bool
  owner   : Port
  csel    : BitVec 4
  unread  : Bool
  time    : Time
  cause   : CapCause
  overrun : Bool
  sample  : Option Bool
  deriving DecidableEq, Repr

/-- The part. `pending` is the queue of waiting commands, first in first out. `irq` and `cadOut` are the levels of
the output pins, driven from the state as the last finished instant left it (R131, R150). `freeCount` is the model's
own: how many free values have been drawn (Config). -/
structure State where
  pending    : List Instr
  phase      : Phase
  configLock : Bool
  turn       : Port
  links      : PerPort Link
  pins       : Pins
  irq        : PerPort Bool
  cadOut     : BitVec 4
  store      : List Host.Cell
  banks      : PerPort Bank
  conduits   : Table 4 Conduit
  tokens     : Table 4 Token
  timebase   : Timebase
  cadences   : Table 2 Cadence
  cutoff     : Cutoff
  captures   : Table 2 Capture
  freeCount  : Nat
  deriving DecidableEq, Repr

/-! ## Pin-reset values (Table 11.1) -/

/-- The view unit after pin reset (R51). -/
def ViewUnit.reset : ViewUnit :=
  { base := 0, enable := false, direct := false, cache := Table.all 6 none, sweep := none, probeAddr := 0,
    probeWrite := false, probeResult := none, probePhys := 0 }

/-- EMPTY records and zero counters (R68). -/
def Records.reset : Records :=
  { deny := none, fault := none, cntDeny := 0, cntFault := 0, cntRefuse := 0, cntLoss := 0 }

def Descriptor.zero : Descriptor := { seq := 0, length := 0, time := 0 }

/-- The banked conduit registers after reset: all 0 (R109). -/
def ConduitPort.reset : ConduitPort :=
  { result := { code := .none, conduit := 0, op := 0, slot := 0 }, info := Descriptor.zero, commitNotice := 0,
    drainNotice := 0, resetNotice := 0 }

/-- The banked token registers after reset: all 0 (R121). -/
def TokenPort.reset : TokenPort := { result := { code := .none, token := 0, op := 0 }, notice := 0 }

/-- The event unit after pin reset (R137). -/
def EventUnit.reset : EventUnit :=
  { latches := 0, lineEnable := 0, routeLo := 0, routeHi := 0, ge := false, tierEnable := 0, soft := 0, inService := 0 }

/-- The monitor after pin reset: ACTIVE with limit 0 (R162). -/
def Monitor.reset : Monitor :=
  { limit := 0, count := 0, phase := 0, presence := .active, warned := false, lastCause := .nothing }

/-- Nothing set since the instant began. -/
def Fresh.zero : Fresh := { commit := 0, drain := 0, reset := 0, token := 0, bell := 0, latch := 0, loss := 0 }

def Bank.reset : Bank :=
  { view := ViewUnit.reset, records := Records.reset, conduits := ConduitPort.reset, tokens := TokenPort.reset,
    bells := { incoming := 0, mask := 0 }, events := EventUnit.reset, timeShadow := 0, capShadow := Table.all 2 0,
    monitor := Monitor.reset, fresh := Fresh.zero }

/-- A conduit after pin reset: configuration 0 and disabled (R87). With MODE 0 the slot count is 1, so the allocation
cursor n − 1 is 0. -/
def Conduit.reset : Conduit :=
  { mode := 0, producer := .A, depth := 0, timed := false, cadence := 0, holdOnLoss := false, base := 0, size := 0,
    enabled := false, configError := 0, descriptors := Table.all 3 Descriptor.zero, visible := [], ready := [],
    filling := none, reading := none, seq := 0, lastOpened := none, cursor := 0 }

/-- A free token with no port waiting (R121). -/
def Token.reset : Token := { holder := none, wait := { a := false, b := false } }

/-- The timebase after pin reset (R154). `left` is set when initialization ends (R172). -/
def Timebase.reset : Timebase :=
  { time := 0, left := 0, prescale := 0, setValue := 0, pendingLoad := none, loadRefused := false }

/-- A cadence after pin reset: IDLE, everything 0 (R154). -/
def Cadence.reset : Cadence :=
  { outEn := false, polarity := false, start := 0, period := 0, periodStage := 0, periodStaged := false, width := 0,
    widthStage := 0, widthStaged := false, state := .idle, next := 0, ticks := 0, pulse := .off, cmdErr := false,
    late := false, overlap := false, ackOverrun := false, freshOverlap := false, freshAckOverrun := false }

/-- The cutoff unit after pin reset (R154), with the sample history restarted at the level `level` of the pin. -/
def Cutoff.reset (level : Bool) : Cutoff :=
  { active := false, cause := .nothing, clearRefused := false, pinEn := false, sample := level, previous := level }

/-- A capture channel after pin reset: off and empty, with no sample yet (R161). -/
def Capture.reset : Capture :=
  { source := 0, edge := 0, mode := false, owner := .A, csel := 0, unread := false, time := 0, cause := .nothing,
    overrun := false, sample := none }

/-- Every state item at its pin-reset value (R170, Table 11.1), with the levels `pins` on the input pins. -/
def State.pinReset (pins : Pins) : State :=
  { pending := [], phase := .held, configLock := false, turn := .A, links := { a := .free, b := .free }, pins := pins,
    irq := { a := false, b := false }, cadOut := 0, store := [], banks := { a := Bank.reset, b := Bank.reset },
    conduits := Table.all 4 Conduit.reset, tokens := Table.all 4 Token.reset, timebase := Timebase.reset,
    cadences := Table.all 2 Cadence.reset, cutoff := Cutoff.reset pins.cutoffN, captures := Table.all 2 Capture.reset,
    freeCount := 0 }

/-- The part under power-on reset, RESET_N low. DESIGN CHOICE (log 4): CUTOFF_N stands high and CAP_IN low, since
the manual gives input pins no level. -/
def State.reset : State := State.pinReset { cutoffN := true, capIn := 0 }

end Sys2Proof.Machine
end

