-- ==== Sys2Proof/Machine/Ops.lean ====
section
/-! DEFINITION. The named operations over the store, the two banks and the tables, and the three shared effects that
many rules use: latching a line, setting a notice, counting in an error counter. -/

namespace Sys2Proof.Machine

/-! ## The store (R24, R25): a list of (address, byte) in rising order, holding the nonzero bytes -/

/-- The byte at an address. An unlisted byte is 0, as initialization leaves it (R24). -/
def Memory.read : List Host.Cell → Nat → Byte
  | [], _ => 0
  | (k, v) :: rest, a => if k = a then v else Memory.read rest a

/-- Writing one byte, keeping the list in its canonical form. -/
def Memory.write : List Host.Cell → Nat → Byte → List Host.Cell
  | [], a, b => if b = 0 then [] else [(a, b)]
  | (k, v) :: rest, a, b =>
    if a < k then (if b = 0 then (k, v) :: rest else (a, b) :: (k, v) :: rest)
    else if a = k then (if b = 0 then rest else (a, b) :: rest)
    else (k, v) :: Memory.write rest a b

/-- The number of bytes of the store (R24). -/
def storeSize : Nat := 262144

/-- The canonical form: addresses strictly rising and inside the store, no byte equal to what an unlisted one reads. -/
def Memory.wf : List Host.Cell → Bool
  | [] => true
  | [(k, v)] => decide (k < storeSize) && v != 0
  | (k, v) :: (k', v') :: rest => decide (k < k') && v != 0 && Memory.wf ((k', v') :: rest)

/-- The canonical store that a list of bytes at any addresses describes. -/
def Memory.ofFree (l : List Host.Cell) : List Host.Cell :=
  l.foldl (fun m c => Memory.write m (c.1 % storeSize) c.2) []

/-- The 4-byte word number `i` of the store, little-endian. -/
def Memory.word (m : List Host.Cell) (i : BitVec 16) : Word :=
  joinBytes (Memory.read m (4 * i.toNat)) (Memory.read m (4 * i.toNat + 1)) (Memory.read m (4 * i.toNat + 2))
    (Memory.read m (4 * i.toNat + 3))

/-- The word of the store that holds an address. -/
def wordIndex (a : StoreAddr) : BitVec 16 := a.extractLsb' 2 16

/-- Whether byte lane `n` carries a byte of an access of size code `size` at an address with low bits `lo` (R2). -/
def touches (lo : BitVec 2) (size : BitVec 2) (n : Nat) : Bool :=
  decide (lo.toNat ≤ n) && decide (n < lo.toNat + 2 ^ size.toNat)

/-- A word with the bytes of the untouched lanes zero. -/
def maskLanes (lo size : BitVec 2) (w : Word) : Word :=
  joinBytes (if touches lo size 0 then byteOf w 0 else 0) (if touches lo size 1 then byteOf w 1 else 0)
    (if touches lo size 2 then byteOf w 2 else 0) (if touches lo size 3 then byteOf w 3 else 0)

/-- A store read: the touched bytes on their lanes and zero on every other lane (R2, R39). -/
def Memory.load (m : List Host.Cell) (a : StoreAddr) (size : BitVec 2) : Word :=
  maskLanes (a.extractLsb' 0 2) size (Memory.word m (wordIndex a))

/-- Writing lane `n` of the word that holds `a`, if the access touches it. -/
def Memory.storeLane (a : StoreAddr) (size : BitVec 2) (data : Word) (m : List Host.Cell) (n : Nat) : List Host.Cell :=
  if touches (a.extractLsb' 0 2) size n then Memory.write m (4 * (wordIndex a).toNat + n) (byteOf data n) else m

/-- A store write: exactly the touched bytes change (R2, R25). -/
def Memory.store (m : List Host.Cell) (a : StoreAddr) (size : BitVec 2) (data : Word) : List Host.Cell :=
  [0, 1, 2, 3].foldl (Memory.storeLane a size data) m

/-- Writing the whole word number `i`. -/
def Memory.storeWord (m : List Host.Cell) (i : BitVec 16) (w : Word) : List Host.Cell :=
  [0, 1, 2, 3].foldl (fun m n => Memory.write m (4 * i.toNat + n) (byteOf w n)) m

/-! ## Reaching the parts of the state -/

def PerPort.map {α : Type} (p : PerPort α) (x : Port) (f : α → α) : PerPort α := p.set x (f (p.get x))

def Table.map {n : Nat} {α : Type} (t : Table n α) (i : BitVec n) (f : α → α) : Table n α := t.set i (f (t.get i))

/-- Port `x`'s copy of everything banked (R12). -/
def State.bank (s : State) (x : Port) : Bank := s.banks.get x

def State.mapBank (s : State) (x : Port) (f : Bank → Bank) : State := { s with banks := s.banks.map x f }

def State.mapView (s : State) (x : Port) (f : ViewUnit → ViewUnit) : State :=
  s.mapBank x fun b => { b with view := f b.view }

def State.mapRecords (s : State) (x : Port) (f : Records → Records) : State :=
  s.mapBank x fun b => { b with records := f b.records }

def State.mapConduitPort (s : State) (x : Port) (f : ConduitPort → ConduitPort) : State :=
  s.mapBank x fun b => { b with conduits := f b.conduits }

def State.mapTokenPort (s : State) (x : Port) (f : TokenPort → TokenPort) : State :=
  s.mapBank x fun b => { b with tokens := f b.tokens }

def State.mapBells (s : State) (x : Port) (f : Bells → Bells) : State :=
  s.mapBank x fun b => { b with bells := f b.bells }

def State.mapEvents (s : State) (x : Port) (f : EventUnit → EventUnit) : State :=
  s.mapBank x fun b => { b with events := f b.events }

def State.mapMonitor (s : State) (x : Port) (f : Monitor → Monitor) : State :=
  s.mapBank x fun b => { b with monitor := f b.monitor }

def State.conduit (s : State) (c : BitVec 4) : Conduit := s.conduits.get c

def State.mapConduit (s : State) (c : BitVec 4) (f : Conduit → Conduit) : State :=
  { s with conduits := s.conduits.map c f }

def State.token (s : State) (t : BitVec 4) : Token := s.tokens.get t

def State.setToken (s : State) (t : BitVec 4) (v : Token) : State := { s with tokens := s.tokens.set t v }

def State.cadence (s : State) (k : BitVec 2) : Cadence := s.cadences.get k

def State.mapCadence (s : State) (k : BitVec 2) (f : Cadence → Cadence) : State :=
  { s with cadences := s.cadences.map k f }

def State.capture (s : State) (k : BitVec 2) : Capture := s.captures.get k

def State.mapCapture (s : State) (k : BitVec 2) (f : Capture → Capture) : State :=
  { s with captures := s.captures.map k f }

/-- TIME as a step finds it (R138). -/
def State.time (s : State) : Time := s.timebase.time

/-- Port `x` is ACTIVE (R162). -/
def State.isActive (s : State) (x : Port) : Bool := (s.bank x).monitor.presence == .active

/-- The sixteen conduits or tokens, in index order. -/
def sixteen : List (BitVec 4) := [0, 1, 2, 3, 4, 5, 6, 7, 8, 9, 10, 11, 12, 13, 14, 15]

/-- The four cadences or capture channels, in index order. -/
def four : List (BitVec 2) := [0, 1, 2, 3]

/-! ## Latching, noticing, counting -/

/-- Line `l`'s latch in port `x`'s unit becomes 1 (R124). -/
def State.latch (s : State) (x : Port) (l : BitVec 4) : State :=
  s.mapBank x fun b =>
    { b with
      events := { b.events with latches := b.events.latches ||| oneHot l }
      fresh := { b.fresh with latch := b.fresh.latch ||| oneHot l } }

/-- Line `l` is latched in the event units of both ports (R122). -/
def State.latchBoth (s : State) (l : BitVec 4) : State := (s.latch .A l).latch .B l

/-- Line 12, PARTNER (Table 7.1). -/
def linePartner : BitVec 4 := 12

/-- Line 13, LIVE_WARN (Table 7.1). -/
def lineLiveWarn : BitVec 4 := 13

/-- Line 14, COUNTER (Table 7.1). -/
def lineCounter : BitVec 4 := 14

/-- Line 7 + k, CADENCEk (Table 7.1). -/
def lineCadence (k : BitVec 2) : BitVec 4 := 7 + k.setWidth 4

/-- Bit `c` of port `x`'s COMMIT_NOTICE register is set (R102). -/
def State.noteCommit (s : State) (x : Port) (c : BitVec 4) : State :=
  s.mapBank x fun b =>
    { b with
      conduits := { b.conduits with commitNotice := b.conduits.commitNotice ||| oneHot c }
      fresh := { b.fresh with commit := b.fresh.commit ||| oneHot c } }

/-- Bit `c` of port `x`'s DRAIN_NOTICE register is set (R103). -/
def State.noteDrain (s : State) (x : Port) (c : BitVec 4) : State :=
  s.mapBank x fun b =>
    { b with
      conduits := { b.conduits with drainNotice := b.conduits.drainNotice ||| oneHot c }
      fresh := { b.fresh with drain := b.fresh.drain ||| oneHot c } }

/-- Bit `c` of port `x`'s RESET_NOTICE register is set (R85). -/
def State.noteReset (s : State) (x : Port) (c : BitVec 4) : State :=
  s.mapBank x fun b =>
    { b with
      conduits := { b.conduits with resetNotice := b.conduits.resetNotice ||| oneHot c }
      fresh := { b.fresh with reset := b.fresh.reset ||| oneHot c } }

/-- Bit `t` of port `x`'s TOKEN_NOTICE register is set (R116). -/
def State.noteToken (s : State) (x : Port) (t : BitVec 4) : State :=
  s.mapBank x fun b =>
    { b with
      tokens := { b.tokens with notice := b.tokens.notice ||| oneHot t }
      fresh := { b.fresh with token := b.fresh.token ||| oneHot t } }

/-- A clearing write of `w` to a register of sixteen flags: the written bits are cleared, save those set at this
instant (R11). -/
def clearFlags (flags fresh : BitVec 16) (w : Word) : BitVec 16 := flags &&& ~~~(w.setWidth 16 &&& ~~~fresh)

def Records.count (r : Records) : Counter → BitVec 8
  | .deny => r.cntDeny
  | .fault => r.cntFault
  | .refuse => r.cntRefuse
  | .loss => r.cntLoss

def Records.withCount (r : Records) (n : Counter) (v : BitVec 8) : Records :=
  match n with
  | .deny => { r with cntDeny := v }
  | .fault => { r with cntFault := v }
  | .refuse => { r with cntRefuse := v }
  | .loss => { r with cntLoss := v }

/-- One event counted in counter `n` of port `x`: a counter at 255 stays and nothing else happens (R64); an increment
to 255 latches line 14 (R65). -/
def State.countEvent (s : State) (x : Port) (n : Counter) : State :=
  let v := (s.bank x).records.count n
  if v = 255 then s
  else
    let s := s.mapBank x fun b =>
      { b with
        records := b.records.withCount n (v + 1)
        fresh := { b.fresh with loss := if n = .loss then b.fresh.loss + 1 else b.fresh.loss } }
    if v = 254 then s.latch x lineCounter else s

end Sys2Proof.Machine
end

