-- ==== Sys2Proof/Machine/Operands.lean ====
section
/-! DEFINITION. The operand forms: alignment and direction of a transaction, the page entry format with its decoding
and permissions, the numeric codes of the reasons and results, and the verdict a step's path ends in. -/

namespace Sys2Proof.Machine

/-! ## Transactions -/

/-- An access is aligned (R5); size code 3 never is. -/
def aligned (a : PortAddr) (size : BitVec 2) : Bool :=
  size == 0 || (size == 1 && !a.getLsbD 0) || (size == 2 && a.extractLsb' 0 2 == 0)

def isWrite : BusOp → Bool
  | .read => false
  | .write _ => true

/-- The page of a view-space offset (Table 1.2). -/
def pageOf (off : BitVec 20) : BitVec 10 := off.extractLsb' 10 10

/-- The offset within the page. -/
def inPage (off : BitVec 20) : BitVec 10 := off.extractLsb' 0 10

/-- The store address of offset `o` in frame `f` (R24, R39). -/
def frameAddr (f : Byte) (o : BitVec 10) : StoreAddr := f ++ o

/-! ## Page entries (Table 2.1) -/

/-- The parts of a page entry that lookups use: what the view cache copies and what a probe reports. -/
structure Entry where
  kind   : Bool
  access : BitVec 2
  target : Byte
  deriving DecidableEq, Repr

def entryOf (w : Word) : Entry :=
  { kind := bit w 8, access := w.extractLsb' 9 2, target := w.extractLsb' 0 8 }

/-- How a page entry decodes (R27). -/
inductive EntryForm where
  | noAccess
  | malformed
  | wellFormed
  deriving DecidableEq, Repr

def entryForm (w : Word) : EntryForm :=
  if w.extractLsb' 9 2 = 0 then .noAccess
  else if w.extractLsb' 12 20 ≠ 0 ∨ (bit w 8 = true ∧ w.extractLsb' 4 4 ≠ 0) then .malformed
  else .wellFormed

/-- The bit of a page entry that a walk sets (Table 2.1). -/
def touchedBit : Nat := 11

/-- The word with TOUCHED set and all other bits unchanged (R36). -/
def withTouched (w : Word) : Word := w ||| 0x800#32

/-- Whether an ACCESS value permits the access, and the reason where it does not (Table 2.2). -/
def refusedBy (access : BitVec 2) (write : Bool) : Option DenyReason :=
  if access = 0 then some .noAccess
  else if write && access == 1 then some .readOnly
  else if write && access == 2 then some .guarded
  else none

/-! ## Codes -/

/-- Table 3.1. -/
def DenyReason.code : DenyReason → BitVec 4
  | .noAccess => 1
  | .readOnly => 2
  | .guarded => 3
  | .malformed => 4
  | .conduitOff => 5
  | .absent => 6
  | .noSlot => 7
  | .direction => 8
  | .beyondSlot => 9

/-- Table 3.2. -/
def FaultReason.code : FaultReason → BitVec 4
  | .unmapped => 1
  | .misaligned => 2
  | .regWidth => 3
  | .regNone => 4
  | .privilege => 5
  | .locked => 6
  | .configBusy => 7
  | .initializing => 8
  | .viewOff => 9
  | .doubleDeny => 10

/-- Table 5.4. -/
def ConduitCode.code : ConduitCode → BitVec 4
  | .none => 0
  | .done => 1
  | .stale => 2
  | .empty => 3
  | .full => 4
  | .notOwner => 5
  | .notOpen => 6
  | .alreadyOpen => 7
  | .badLength => 8
  | .disabled => 9
  | .absent => 10
  | .badOp => 11

/-- Table 6.4. -/
def TokenCode.code : TokenCode → BitVec 4
  | .none => 0
  | .granted => 1
  | .waiting => 2
  | .released => 3
  | .cancelled => 4
  | .heldAlready => 5
  | .freeAlready => 6
  | .notHolder => 7
  | .notWaiting => 8
  | .notPermitted => 9
  | .absent => 10

/-- Table 8.2. -/
def CadState.code : CadState → BitVec 2
  | .idle => 0
  | .armed => 1
  | .running => 2
  | .stopped => 3

/-- Table 10.2. -/
def LastCause.code : LastCause → BitVec 2
  | .nothing => 0
  | .expired => 1
  | .reset => 2

/-- Table 8.6. -/
def CutoffCause.code : CutoffCause → BitVec 2
  | .nothing => 0
  | .pin => 1
  | .soft => 2

/-- Table 9.1. -/
def CapCause.code : CapCause → BitVec 2
  | .nothing => 0
  | .rising => 1
  | .falling => 2
  | .internal => 3

/-- Table 1.1: what xRESP carries. -/
def Resp.code : Resp → BitVec 2
  | .okay => 0
  | .deny => 1
  | .fault => 2

/-- The port a one-bit field names: 0 port A, 1 port B (Tables 4.1 and 9.1). -/
def portOfBit (b : Bool) : Port := if b then .B else .A

def bitOfPort : Port → Bool
  | .A => false
  | .B => true

/-- How HOLDER_t shows a holder (R116). -/
def holderCode : Option Port → BitVec 2
  | none => 0
  | some .A => 1
  | some .B => 2

/-- What the path of a transaction ends in, before the records are consulted: performed with its read data, a deny
condition with what the deny record keeps of it (R57), or a fault. -/
inductive Verdict where
  | okay (rdata : Word)
  | denied (reason : DenyReason) (access : BitVec 2) (conduit : BitVec 4)
  | faulted (reason : FaultReason)
  deriving DecidableEq, Repr

end Sys2Proof.Machine
end

