-- ==== Sys2Proof/Machine/Flags.lean ====
section
/-! DEFINITION. Everything that is a function of the state and not stored: the sixteen event lines, tier requests and
eligibility, what a claim finds, and the levels of the output pins. -/

namespace Sys2Proof.Machine

/-- The latched lines: 7 to 10 and 12 to 14 (Table 7.1). -/
def latchedLines : BitVec 16 := 0x7780#16

/-- A capture channel whose owner is `x` holds an unread record (R160). -/
def captureLine (s : State) (x : Port) : Bool :=
  four.any fun k => (s.capture k).unread && (s.capture k).owner == x

/-- The pending values of the level lines of port `x`'s unit (Table 7.1, R122). -/
def levelLines (s : State) (x : Port) : BitVec 16 :=
  let b := s.bank x
  let line (v : Bool) (n : Nat) : BitVec 16 := (BitVec.ofBool v).setWidth 16 <<< n
  line b.records.deny.isSome 0 ||| line b.records.fault.isSome 1 ||| line (b.conduits.commitNotice != 0) 2
    ||| line (b.conduits.drainNotice != 0) 3 ||| line (b.conduits.resetNotice != 0) 4 ||| line (b.tokens.notice != 0) 5
    ||| line (b.bells.incoming &&& b.bells.mask != 0) 6 ||| line (captureLine s x) 11 ||| line s.cutoff.active 15

/-- The pending values of all sixteen lines: the latches and the level lines (R122). -/
def pendingLines (s : State) (x : Port) : BitVec 16 :=
  ((s.bank x).events.latches &&& latchedLines) ||| levelLines s x

/-- ROUTE_l (Table 7.3). -/
def EventUnit.route (e : EventUnit) (l : Nat) : BitVec 4 :=
  if l < 8 then e.routeLo.extractLsb' (4 * l) 4 else e.routeHi.extractLsb' (4 * (l - 8)) 4

/-- A written route field: 1 to 4 stand, every other value leaves the line unrouted (R127). -/
def legalRoute (v : BitVec 4) : BitVec 4 := if v.toNat ≤ 4 then v else 0

/-- A written route register, each of its eight fields taken separately (R127). -/
def legalRoutes (w : Word) : Word :=
  [0, 1, 2, 3, 4, 5, 6, 7].foldl (fun acc n => acc ||| place (legalRoute (w.extractLsb' (4 * n) 4)) (4 * n)) 0

/-- The sixteen line numbers in order. -/
def lineNumbers : List Nat := [0, 1, 2, 3, 4, 5, 6, 7, 8, 9, 10, 11, 12, 13, 14, 15]

/-- The lines that are pending, enabled and routed to tier `n` (R130), lowest first. -/
def requestingLines (s : State) (x : Port) (n : Nat) : List Nat :=
  let e := (s.bank x).events
  lineNumbers.filter fun l => (pendingLines s x &&& e.lineEnable).getLsbD l && (e.route l).toNat == n

/-- Tier `n` has a request: its soft request, or a line that is pending, enabled and routed to it (R130). -/
def hasRequest (s : State) (x : Port) (n : Nat) : Bool :=
  (s.bank x).events.soft.getLsbD (n - 1) || !(requestingLines s x n).isEmpty

/-- No tier from 1 to `n` is in service (R130). -/
def unblocked (e : EventUnit) (n : Nat) : Bool := [1, 2, 3, 4].all fun m => !(m ≤ n && e.inService.getLsbD (m - 1))

/-- Tier `n` is eligible (R130). -/
def eligible (s : State) (x : Port) (n : Nat) : Bool :=
  let e := (s.bank x).events
  hasRequest s x n && e.ge && e.tierEnable.getLsbD (n - 1) && unblocked e n

/-- The most urgent eligible tier (R132). -/
def claimTier (s : State) (x : Port) : Option Nat := [1, 2, 3, 4].find? (eligible s x)

/-- The line a claim of tier `n` reports: the lowest requesting line, or 16 where only the soft request stands (R132). -/
def claimLine (s : State) (x : Port) (n : Nat) : Nat := (requestingLines s x n).headD 16

/-- The level of port `x`'s IRQ pin that the state calls for (R131). -/
def irqLevel (s : State) (x : Port) : Bool := [1, 2, 3, 4].any (eligible s x)

/-- A cadence's output is active (R148). -/
def Cadence.output (c : Cadence) : Bool := c.pulse != .off

/-- A cadence is ARMED or RUNNING. -/
def Cadence.live (c : Cadence) : Bool := c.state == .armed || c.state == .running

/-- The level of CAD_OUT[k] that the state calls for (R150): the active level, high unless POLARITY is 1, only while
the output is active, OUT_EN is 1 and the cutoff unit is NORMAL. -/
def cadOutLevel (s : State) (k : BitVec 2) : Bool :=
  let c := s.cadence k
  (c.output && c.outEn && !s.cutoff.active) != c.polarity

/-- The levels of the four CAD_OUT pins. -/
def cadOutLevels (s : State) : BitVec 4 :=
  four.foldl (fun acc k => acc ||| ((BitVec.ofBool (cadOutLevel s k)).setWidth 4 <<< k.toNat)) 0

/-- The output pins take the levels that the state calls for, as it stands at the end of an instant (R131, R150). -/
def State.drivePins (s : State) : State :=
  { s with irq := { a := irqLevel s .A, b := irqLevel s .B }, cadOut := cadOutLevels s }

end Sys2Proof.Machine
end

