-- ==== Sys2Proof/Machine/Capture.lean ====
section
/-! DEFINITION. The capture channels (chapter 9): capture events from pins, commits and cadence ticks, the record, and
the reads and writes that act on it. -/

namespace Sys2Proof.Machine

/-- A capture event on a channel's record (R158): MODE 0 is SINGLE, 1 is CONTINUOUS. -/
def Capture.take (c : Capture) (t : Time) (cause : CapCause) : Capture :=
  if c.unread && !c.mode then { c with overrun := true }
  else { c with time := t, cause := cause, unread := true, overrun := c.overrun || c.unread }

/-- Every channel that the test selects takes the event, in channel order (R157). -/
def captureWhere (sel : Capture → Bool) (t : Time) (s : State) : State :=
  four.foldl (fun s k => if sel (s.capture k) then s.mapCapture k (·.take t .internal) else s) s

/-- A successful commit on conduit `c`, at the slot's COMMIT_TIME (R157). -/
def captureFromCommit (c : BitVec 4) (t : Time) (s : State) : State :=
  captureWhere (fun ch => ch.source == 2 && ch.csel == c) t s

/-- A tick of cadence `k`, at TIME at that tick (R157). A CSEL of 4 to 15 names no cadence (R155). -/
def captureFromTick (k : BitVec 2) (s : State) : State :=
  captureWhere (fun ch => ch.source == 3 && ch.csel == k.setWidth 4) s.time s

/-- A pin channel selects this edge (R156). -/
def Capture.matches (c : Capture) (e : Edge) : Bool :=
  c.source == 1 && (c.edge == 2 || c.edge == (match e with | .rising => 0 | .falling => 1))

def edgeCause : Edge → CapCause
  | .rising => .rising
  | .falling => .falling

/-- The edge between two samples (R156). -/
def edgeBetween (old new : Bool) : Option Edge :=
  if !old && new then some .rising else if old && !new then some .falling else none

/-- CAP_IN[k] is sampled at the level `v`: the first sample yields no edge, an edge that the channel selects captures
TIME, and any other edge is discarded (R156). -/
def Capture.sampleAt (c : Capture) (v : Bool) (t : Time) : Capture :=
  match c.sample.bind (fun old => edgeBetween old v) with
  | some e => { (if c.matches e then c.take t (edgeCause e) else c) with sample := some v }
  | none => { c with sample := some v }

/-- Every pin CAP_IN[3:0] is sampled at the level that stands on it, in channel order (R10, R156). -/
def sampleCaptures (s : State) : State :=
  four.foldl (fun s k => s.mapCapture k (·.sampleAt (s.pins.capIn.getLsbD k.toNat) s.time)) s

/-- The empty record (R155). -/
def Capture.emptied (c : Capture) : Capture :=
  { c with unread := false, time := 0, cause := .nothing, overrun := false }

/-- A write to CAP_CONFIG stores all five fields and empties the record (R155). -/
def writeCapConfig (k : BitVec 2) (w : Word) (s : State) : State :=
  s.mapCapture k fun c =>
    { c.emptied with
      source := w.extractLsb' 0 2, edge := w.extractLsb' 2 2, mode := bit w 4, owner := portOfBit (bit w 5)
      csel := w.extractLsb' 8 4 }

/-- The owner's read consumes the record (R159). -/
def Capture.consumedBy (c : Capture) (x : Port) : Capture :=
  if c.owner = x then { c with unread := false, overrun := false } else c

/-- A read of CAP_TIME_LO by `x` loads x's shadow and, for the owner, consumes the record (R159). -/
def readCapTimeLo (x : Port) (k : BitVec 2) (s : State) : State :=
  (s.mapBank x fun b => { b with capShadow := b.capShadow.set k (hiHalf (s.capture k).time) }).mapCapture k
    (·.consumedBy x)

end Sys2Proof.Machine
end

