-- ==== Sys2Proof/Machine/Conduit.lean ====
section
/-! DEFINITION. The conduits (chapters 4 and 5): slot geometry and states, the window checks, enabling and disabling,
the six commands, timed release and flush, and revocation. -/

namespace Sys2Proof.Machine

/-! ## Geometry and slot states -/

/-- MODE 1 is LATEST (R69). -/
def Conduit.isLatest (c : Conduit) : Bool := c.mode == 1

/-- The consumer is the port that is not the producer (R69). -/
def Conduit.consumer (c : Conduit) : Port := c.producer.other

/-- The slot count n (Table 4.3). -/
def Conduit.slotCount (c : Conduit) : Nat :=
  if c.mode = 0 then 1
  else if c.mode = 1 then (if c.timed then 4 else 3)
  else if c.mode = 2 then c.depth.toNat + 1
  else 0

/-- The slot size in bytes (R71). -/
def Conduit.slotSize (c : Conduit) : Nat := (c.size.toNat + 1) * 16

/-- The store address of offset `o` in slot `i` (R71, R80). -/
def Conduit.slotAddr (c : Conduit) (i : BitVec 3) (o : Nat) : StoreAddr :=
  BitVec.ofNat 18 (c.base.toNat * 16 + i.toNat * c.slotSize + o)

/-- The states of Table 4.4. -/
inductive SlotState where
  | free
  | filling
  | ready
  | visible
  | reading
  deriving DecidableEq, Repr

def SlotState.code : SlotState → BitVec 3
  | .free => 0
  | .filling => 1
  | .ready => 2
  | .visible => 3
  | .reading => 4

/-- The state of slot `i`, read off the records that determine it (R77). -/
def Conduit.slotState (c : Conduit) (i : BitVec 3) : SlotState :=
  if c.filling = some i then .filling
  else if c.reading = some i then .reading
  else if i ∈ c.ready then .ready
  else if i ∈ c.visible then .visible
  else .free

/-- The slots 0 to n − 1, in index order. -/
def Conduit.slots (c : Conduit) : List (BitVec 3) := [0, 1, 2, 3, 4, 5, 6, 7].filter fun i => decide (i.toNat < c.slotCount)

/-- Some slot is in a state other than FREE (R85). -/
def Conduit.inFlight (c : Conduit) : Bool := c.slots.any fun i => c.slotState i != .free

/-- The slot that port `x` holds open in its role: the producer's FILLING slot, the consumer's READING slot. -/
def Conduit.openSlot (c : Conduit) (x : Port) : Option (BitVec 3) := if x = c.producer then c.filling else c.reading

/-- A conduit is gated while its bound cadence is ARMED or RUNNING (R93). -/
def gated (s : State) (c : Conduit) : Bool := c.timed && (s.cadence c.cadence).live

/-! ## Window checks (section 4.4) -/

/-- The checks of R79 in their order, and the store address of R80 where all pass. -/
def windowCheck (s : State) (x : Port) (n : BitVec 4) (write : Bool) (o : BitVec 10) : Except DenyReason StoreAddr :=
  let c := s.conduit n
  if !c.enabled then .error .conduitOff
  else if !s.isActive x then .error .absent
  else match c.openSlot x with
    | none => .error .noSlot
    | some i =>
      if x = c.consumer && write then .error .direction
      else if c.slotSize ≤ o.toNat then .error .beyondSlot
      else .ok (c.slotAddr i o.toNat)

/-! ## Configuration, enabling, disabling -/

/-- A CFG_MODE, CFG_BASE or CFG_SLOT write stores its fields and nothing else (R72). -/
def Conduit.configure (c : Conduit) (r : CfgReg) (w : Word) : Conduit :=
  match r with
  | .mode =>
    { c with mode := w.extractLsb' 0 2, producer := portOfBit (bit w 2), depth := w.extractLsb' 4 3, timed := bit w 8,
             cadence := w.extractLsb' 9 2, holdOnLoss := bit w 12 }
  | .base => { c with base := w.extractLsb' 0 14 }
  | .slot => { c with size := w.extractLsb' 0 6 }

def writeCfg (r : CfgReg) (n : BitVec 4) (w : Word) (s : State) : State := s.mapConduit n (·.configure r w)

/-- The first enable check that fails, by its error code (R73). -/
def Conduit.enableError (c : Conduit) : Option (BitVec 2) :=
  if c.mode = 3 then some 1
  else if c.mode = 2 ∧ c.depth = 0 then some 2
  else if storeSize < c.base.toNat * 16 + c.slotCount * c.slotSize then some 3
  else none

/-- The slot table with every slot FREE and every record as an enable or a disable leaves it (R74, R85). -/
def Conduit.freshTable (c : Conduit) : Conduit :=
  { c with descriptors := Table.all 3 Descriptor.zero, visible := [], ready := [], filling := none, reading := none,
           lastOpened := none, cursor := BitVec.ofNat 3 (c.slotCount - 1) }

/-- ENABLE written 1 (R73 to R75). -/
def enableConduit (n : BitVec 4) (s : State) : State :=
  s.mapConduit n fun c =>
    if c.enabled then c
    else match c.enableError with
      | some e => { c with configError := e }
      | none => { c.freshTable with enabled := true, configError := 0, seq := 0 }

/-- Steps 2 and 3 of R85. -/
def Conduit.disabled (c : Conduit) : Conduit := { c.freshTable with enabled := false }

/-- ENABLE written 0 (R75, R85). -/
def disableConduit (n : BitVec 4) (s : State) : State :=
  let c := s.conduit n
  if !c.enabled then s
  else
    let t := s.mapConduit n (·.disabled)
    if c.inFlight then (t.noteReset .A n).noteReset .B n else t

/-- A write to CFG_ENABLE (R75). -/
def writeCfgEnable (n : BitVec 4) (w : Word) (s : State) : State :=
  if bit w 0 then enableConduit n s else disableConduit n s

/-! ## Commands (sections 5.1 to 5.5) -/

def State.setConduitResult (s : State) (x : Port) (code : ConduitCode) (n : BitVec 4) (op : BitVec 4) (slot : BitVec 3) :
    State :=
  s.mapConduitPort x fun p => { p with result := { code := code, conduit := n, op := op, slot := slot } }

def State.setSlotInfo (s : State) (x : Port) (d : Descriptor) : State := s.mapConduitPort x fun p => { p with info := d }

/-- The operation belongs to the producer: OPEN_WRITE, COMMIT, ABANDON (R89 check 4). -/
def isProducerOp (op : BitVec 4) : Bool := decide (op.toNat ≤ 3)

/-- The operation opens a slot: OPEN_WRITE, OPEN_READ (R89 check 5). -/
def isOpening (op : BitVec 4) : Bool := op == 1 || op == 4

/-- Checks 1 to 6 of R89: the refusal, if there is one. -/
def conduitRefusal (s : State) (x : Port) (op : BitVec 4) (n : BitVec 4) (len : BitVec 11) : Option ConduitCode :=
  let c := s.conduit n
  if isBadOp op then some .badOp
  else if !c.enabled then some .disabled
  else if !s.isActive x then some .absent
  else if (isProducerOp op && x != c.producer) || (!isProducerOp op && x == c.producer) then some .notOwner
  else if isOpening op && (c.openSlot x).isSome then some .alreadyOpen
  else if !isOpening op && (c.openSlot x).isNone then some .notOpen
  else if op == 2 && (len == 0 || decide (c.slotSize < len.toNat)) then some .badLength
  else none

/-- The slots OPEN_WRITE examines, in its order: slot 0 (R94), cyclically after the cursor (R96), or by index (R99). -/
def Conduit.candidates (c : Conduit) : List (BitVec 3) :=
  if c.mode = 2 then
    (List.range c.slotCount).map fun j => BitVec.ofNat 3 ((c.cursor.toNat + 1 + j) % c.slotCount)
  else c.slots

/-- The FREE slot that OPEN_WRITE takes. -/
def Conduit.firstFree (c : Conduit) : Option (BitVec 3) := c.candidates.find? fun i => c.slotState i == .free

/-- OPEN_WRITE past the checks (R94, R96, R99, R91). -/
def openWriteEffect (x : Port) (n : BitVec 4) (s : State) : State :=
  let c := s.conduit n
  match c.firstFree with
  | none => s.setConduitResult x .full n 1 0
  | some i =>
    ((s.mapConduit n fun c => { c with filling := some i, cursor := i }).setSlotInfo x
      { seq := 0, length := BitVec.ofNat 11 c.slotSize, time := 0 }).setConduitResult x .done n 1 i

/-- The conduit after its FILLING slot `i` is committed with descriptor `d` (R92, R93, R99). -/
def Conduit.committed (c : Conduit) (i : BitVec 3) (d : Descriptor) (gate : Bool) : Conduit :=
  { c with
    seq := d.seq, descriptors := c.descriptors.set i d, filling := none
    visible := if gate then c.visible else if c.isLatest then [i] else c.visible ++ [i]
    ready := if gate then (if c.isLatest then [i] else c.ready ++ [i]) else c.ready }

/-- COMMIT past the checks (R92, R93, R91, R102, R157). -/
def commitEffect (x : Port) (n : BitVec 4) (len : BitVec 11) (s : State) : State :=
  let c := s.conduit n
  match c.filling with
  | none => s
  | some i =>
    let gate := gated s c
    let d : Descriptor := { seq := c.seq + 1, length := len, time := s.time }
    let t := ((s.mapConduit n (·.committed i d gate)).setSlotInfo x d).setConduitResult x .done n 2 i
    captureFromCommit n s.time (if gate then t else t.noteCommit c.consumer n)

/-- ABANDON past the checks (R94). -/
def abandonEffect (x : Port) (n : BitVec 4) (s : State) : State :=
  match (s.conduit n).filling with
  | none => s
  | some i => (s.mapConduit n fun c => { c with filling := none }).setConduitResult x .done n 3 i

/-- OPEN_READ past the checks (R95, R97, R100, R91). -/
def openReadEffect (x : Port) (n : BitVec 4) (s : State) : State :=
  let c := s.conduit n
  match c.visible with
  | [] => s.setConduitResult x .empty n 4 0
  | i :: rest =>
    let d := c.descriptors.get i
    let code : ConduitCode := if c.isLatest && c.lastOpened == some d.seq then .stale else .done
    ((s.mapConduit n fun c =>
        { c with visible := rest, reading := some i, lastOpened := if c.isLatest then some d.seq else c.lastOpened }
      ).setSlotInfo x d).setConduitResult x code n 4 i

/-- The READING slot `i` is given back: to the head of the visible list, or, in LATEST mode, to FREE where a newer
slot waits (R97, R101). The flag says that the slot became VISIBLE. -/
def Conduit.givenBack (c : Conduit) (i : BitVec 3) : Conduit × Bool :=
  if c.isLatest && !(c.visible.isEmpty && c.ready.isEmpty) then ({ c with reading := none }, false)
  else ({ c with reading := none, visible := i :: c.visible }, true)

/-- RELEASE past the checks (R95, R97, R101, R103). -/
def releaseEffect (x : Port) (n : BitVec 4) (s : State) : State :=
  let c := s.conduit n
  match c.reading with
  | none => s
  | some i =>
    if c.isLatest && (c.givenBack i).2 then
      (s.mapConduit n fun c => (c.givenBack i).1).setConduitResult x .done n 5 i
    else
      ((s.mapConduit n fun c => { c with reading := none }).setConduitResult x .done n 5 i).noteDrain c.producer n

/-- RETURN past the checks (R95, R97, R101). -/
def returnEffect (x : Port) (n : BitVec 4) (s : State) : State :=
  match (s.conduit n).reading with
  | none => s
  | some i => (s.mapConduit n fun c => (c.givenBack i).1).setConduitResult x .done n 6 i

/-- A write to CONDUIT_COMMAND (R88 to R90). -/
def conduitCommand (x : Port) (w : Word) (s : State) : State :=
  let op : BitVec 4 := w.extractLsb' 0 4
  let n : BitVec 4 := w.extractLsb' 4 4
  let len : BitVec 11 := w.extractLsb' 8 11
  match conduitRefusal s x op n len with
  | some code => (s.setConduitResult x code n op 0).countEvent x .refuse
  | none =>
    if op = 1 then openWriteEffect x n s
    else if op = 2 then commitEffect x n len s
    else if op = 3 then abandonEffect x n s
    else if op = 4 then openReadEffect x n s
    else if op = 5 then releaseEffect x n s
    else returnEffect x n s

/-! ## Timed release, flush, revocation (sections 5.7 and 5.8) -/

/-- The ready list becomes visible (R105). -/
def Conduit.released (c : Conduit) : Conduit :=
  { c with visible := if c.isLatest then c.ready else c.visible ++ c.ready, ready := [] }

/-- The release of one conduit's ready list, with the consumer's COMMIT notice if a slot moved (R105). -/
def releaseReady (n : BitVec 4) (s : State) : State :=
  let c := s.conduit n
  if c.ready.isEmpty then s else (s.mapConduit n (·.released)).noteCommit c.consumer n

/-- The release at a tick of cadence `k`, and the flush when it stops: every enabled timed conduit bound to `k`, in
index order (R105, R106). -/
def releaseBound (k : BitVec 2) (s : State) : State :=
  sixteen.foldl
    (fun s n => if (s.conduit n).enabled && (s.conduit n).timed && (s.conduit n).cadence == k then releaseReady n s else s)
    s

/-- Revocation of port `x` on one conduit (R107). -/
def revokeOn (x : Port) (n : BitVec 4) (s : State) : State :=
  let c := s.conduit n
  if x = c.producer then s.mapConduit n fun c => { c with filling := none }
  else match c.reading with
    | none => s
    | some i =>
      let t := s.mapConduit n fun c => (c.givenBack i).1
      if (c.givenBack i).2 then t.noteCommit x n else t

/-- Revocation of port `x` on every enabled conduit to which it applies: on expiry only where HOLD_ON_LOSS is 0, on a
port reset everywhere (R108). -/
def revoke (x : Port) (onExpiry : Bool) (s : State) : State :=
  sixteen.foldl
    (fun s n => if (s.conduit n).enabled && !(onExpiry && (s.conduit n).holdOnLoss) then revokeOn x n s else s) s

/-! ## Notice registers (R104) -/

def clearCommitNotice (x : Port) (w : Word) (s : State) : State :=
  s.mapBank x fun b =>
    { b with conduits := { b.conduits with commitNotice := clearFlags b.conduits.commitNotice b.fresh.commit w } }

def clearDrainNotice (x : Port) (w : Word) (s : State) : State :=
  s.mapBank x fun b =>
    { b with conduits := { b.conduits with drainNotice := clearFlags b.conduits.drainNotice b.fresh.drain w } }

def clearResetNotice (x : Port) (w : Word) (s : State) : State :=
  s.mapBank x fun b =>
    { b with conduits := { b.conduits with resetNotice := clearFlags b.conduits.resetNotice b.fresh.reset w } }

end Sys2Proof.Machine
end

