-- ==== Sys2Proof/Machine/View.lean ====
section
/-! DEFINITION. The view units (chapter 2): lookup, page walk, permission, hand-over to the conduit checks, the view
access itself, invalidation and sweeps, and the probe. -/

namespace Sys2Proof.Machine

/-- Direct translation is in effect for port `x` (R31). -/
def directInEffect (s : State) (x : Port) : Bool :=
  (s.bank x).view.enable && (s.bank x).view.direct && !s.configLock

/-- The cache entry number of a page: p mod 64 (section 2.4). -/
def cacheIndex (p : BitVec 10) : BitVec 6 := p.extractLsb' 0 6

/-- The tag of a page: p div 64 (Table 2.5). -/
def cacheTag (p : BitVec 10) : BitVec 4 := p.extractLsb' 6 4

/-- The lookup of page `p` (R33): the cached entry on a hit. -/
def lookup (v : ViewUnit) (p : BitVec 10) (write : Bool) : Option Entry :=
  if v.sweep.isSome then none
  else match v.cache.get (cacheIndex p) with
    | none => none
    | some e =>
      if e.tag = cacheTag p ∧ refusedBy e.access write = none then
        some { kind := e.kind, access := e.access, target := e.target }
      else none

/-- The number of the store word that holds the entry of page `p` of a table at BASE (R26). -/
def tableWord (base : BitVec 6) (p : BitVec 10) : BitVec 16 := base ++ p

/-- How a view access, or a probe of one, is judged (R34): the entry that judged it, whether it came from the cache, the
word a walk read, and the store address reached or the deny reason. -/
structure Judgement where
  hit     : Bool
  entry   : Entry
  walked  : Option Word
  outcome : Except DenyReason StoreAddr

/-- Stages 5 and 6 for a well-formed or cached entry: permission (R38), then the store (R39) or the conduit (R40). -/
def judgeEntry (s : State) (x : Port) (e : Entry) (write : Bool) (o : BitVec 10) : Except DenyReason StoreAddr :=
  match refusedBy e.access write with
  | some r => .error r
  | none => if e.kind then windowCheck s x (e.target.extractLsb' 0 4) write o else .ok (frameAddr e.target o)

/-- Stages 2 to 6 of R34 for an enabled view, evaluated on the state without changing it. -/
def judge (s : State) (x : Port) (p : BitVec 10) (o : BitVec 10) (write : Bool) : Judgement :=
  let v := (s.bank x).view
  if directInEffect s x then
    if p.toNat < 256 then
      { hit := false, entry := { kind := false, access := 3, target := p.extractLsb' 0 8 }, walked := none
        outcome := .ok (frameAddr (p.extractLsb' 0 8) o) }
    else { hit := false, entry := { kind := false, access := 0, target := 0 }, walked := none, outcome := .error .noAccess }
  else match lookup v p write with
    | some e => { hit := true, entry := e, walked := none, outcome := judgeEntry s x e write o }
    | none =>
      let w := Memory.word s.store (tableWord v.base p)
      { hit := false, entry := entryOf w, walked := some w
        outcome :=
          match entryForm w with
          | .noAccess => .error .noAccess
          | .malformed => .error .malformed
          | .wellFormed => judgeEntry s x (entryOf w) write o }

/-- What a walk of page `p` leaves behind: for a well-formed word, the TOUCHED write-back where the bit was 0 (R36), and
the cache fill where no sweep runs (R37). -/
def walkEffects (x : Port) (p : BitVec 10) (w : Word) (s : State) : State :=
  match entryForm w with
  | .wellFormed =>
    let v := (s.bank x).view
    let s :=
      if bit w touchedBit then s
      else { s with store := Memory.storeWord s.store (tableWord v.base p) (withTouched w) }
    if v.sweep.isSome then s
    else
      let e := entryOf w
      s.mapView x fun v =>
        { v with cache := v.cache.set (cacheIndex p)
                   (some { tag := cacheTag p, kind := e.kind, access := e.access, target := e.target }) }
  | _ => s

/-- The conduit that a deny record names: the entry's conduit for the conduit reasons, 0 for the others (R57). -/
def denyConduit (r : DenyReason) (e : Entry) : BitVec 4 :=
  match r with
  | .noAccess | .readOnly | .guarded | .malformed => 0
  | .conduitOff | .absent | .noSlot | .direction | .beyondSlot => e.target.extractLsb' 0 4

/-- An aligned view access of port `x` (R34). A read returns what the store held when the step began (R8, R25); a write
changes the touched bytes after the walk's own write-back (R36). -/
def viewAccess (x : Port) (off : BitVec 20) (size : BitVec 2) (op : BusOp) (s : State) : State × Verdict :=
  if !(s.bank x).view.enable then (s, .faulted .viewOff)
  else
    let p := pageOf off
    let j := judge s x p (inPage off) (isWrite op)
    let t := match j.walked with
      | some w => walkEffects x p w s
      | none => s
    match j.outcome with
    | .error r => (t, .denied r j.entry.access (denyConduit r j.entry))
    | .ok a =>
      match op with
      | .read => (t, .okay (Memory.load s.store a size))
      | .write d => ({ t with store := Memory.store t.store a size d }, .okay 0)

/-! ## Invalidation and sweeps (section 2.6) -/

/-- A sweep request: it starts a sweep, or is absorbed by the one that runs (R43). -/
def requestSweep (x : Port) (s : State) : State :=
  s.mapView x fun v => if v.sweep.isSome then v else { v with sweep := some 0 }

/-- One core clock of a running sweep: the next entry is invalidated, and after entry 63 the sweep ends (R44). -/
def ViewUnit.sweepOn (v : ViewUnit) : ViewUnit :=
  match v.sweep with
  | none => v
  | some i => { v with cache := v.cache.set i none, sweep := if i = 63 then none else some (i + 1) }

def advanceSweep (x : Port) (s : State) : State := s.mapView x ViewUnit.sweepOn

/-- A single invalidation of page `p` (R42). -/
def invalidatePage (x : Port) (p : BitVec 10) (s : State) : State :=
  s.mapView x fun v =>
    if v.sweep.isSome then v
    else match v.cache.get (cacheIndex p) with
      | some e => if e.tag = cacheTag p then { v with cache := v.cache.set (cacheIndex p) none } else v
      | none => v

/-- A write to INVALIDATE (R42, R43). -/
def writeInvalidate (x : Port) (w : Word) (s : State) : State :=
  if bit w 31 then requestSweep x s else invalidatePage x (w.extractLsb' 0 10) s

/-- A write to VIEW_BASE (R29). -/
def writeViewBase (x : Port) (w : Word) (s : State) : State :=
  requestSweep x (s.mapView x fun v => { v with base := w.extractLsb' 0 6 })

/-- A write to VIEW_CONTROL (R30, R32): a sweep where ENABLE falls or DIRECT changes. -/
def writeViewControl (x : Port) (w : Word) (s : State) : State :=
  let v := (s.bank x).view
  let t := s.mapView x fun v => { v with enable := bit w 0, direct := bit w 1 }
  if (v.enable && !bit w 0) || v.direct != bit w 1 then requestSweep x t else t

/-! ## The probe (section 2.7) -/

/-- What a probe of the address finds (R47 to R49): the result register's contents and the store address. -/
def probeFinds (s : State) (x : Port) (a : PortAddr) (write : Bool) : ProbeResult × StoreAddr :=
  match space a with
  | .view off =>
    if !(s.bank x).view.enable then
      ({ outcome := 15, hit := false, kind := false, access := 0, target := 0 }, 0)
    else
      let j := judge s x (pageOf off) (inPage off) write
      let found (o : BitVec 4) : ProbeResult :=
        { outcome := o, hit := j.hit, kind := j.entry.kind, access := j.entry.access, target := j.entry.target }
      match j.outcome with
      | .error r => (found r.code, 0)
      | .ok phys => (found 0, phys)
  | _ => ({ outcome := 14, hit := false, kind := false, access := 0, target := 0 }, 0)

/-- A write to PROBE_ADDR (R47 to R50). -/
def writeProbe (x : Port) (w : Word) (s : State) : State :=
  let a : PortAddr := w.extractLsb' 0 24
  let found := probeFinds s x a (bit w 31)
  s.mapView x fun v =>
    { v with probeAddr := a, probeWrite := bit w 31, probeResult := some found.1, probePhys := found.2 }

end Sys2Proof.Machine
end

