-- ==== Sys2Proof/Machine/Records.lean ====
section
/-! DEFINITION. The record units (chapter 3): how a step's verdict fills or escalates the records, and their release. -/

namespace Sys2Proof.Machine

/-- A transaction answered FAULT (R61): the record is filled if EMPTY and otherwise keeps its items with LOST set, and
CNT_FAULT counts. -/
def recordFault (x : Port) (t : Txn) (r : FaultReason) (s : State) : State :=
  (s.mapRecords x fun rec =>
      { rec with
        fault := some
          (match rec.fault with
           | none =>
             { write := isWrite t.op, size := t.size, reason := r, addr := t.addr, time := loWord s.time, lost := false }
           | some f => { f with lost := true }) }).countEvent x .fault

/-- A transaction answered DENY (R57): the EMPTY record is filled and CNT_DENY counts. -/
def recordDeny (x : Port) (t : Txn) (r : DenyReason) (access : BitVec 2) (conduit : BitVec 4) (s : State) : State :=
  (s.mapRecords x fun rec =>
      { rec with
        deny := some
          { write := isWrite t.op, size := t.size, reason := r, access := access, conduit := conduit, addr := t.addr
            time := loWord s.time } }).countEvent x .deny

/-- The record unit applies the verdict of port `x`'s step and fixes the response (R52, R55 to R58, R61). -/
def applyVerdict (x : Port) (t : Txn) (v : Verdict) (s : State) : State × Response :=
  match v with
  | .okay d => (s, { resp := .okay, rdata := d })
  | .denied r access conduit =>
    if (s.bank x).records.deny.isNone then (recordDeny x t r access conduit s, { resp := .deny, rdata := 0 })
    else (recordFault x t .doubleDeny s, { resp := .fault, rdata := 0 })
  | .faulted r => (recordFault x t r s, { resp := .fault, rdata := 0 })

/-- A write to DENY_RELEASE (R59). -/
def releaseDeny (x : Port) (s : State) : State := s.mapRecords x fun r => { r with deny := none }

/-- A write to FAULT_RELEASE (R62). -/
def releaseFault (x : Port) (s : State) : State := s.mapRecords x fun r => { r with fault := none }

/-- A write to a counter register: the counter becomes 0, or, where CNT_LOSS was incremented at this instant, the number
of those increments (R66, R11). -/
def clearCounter (x : Port) (n : Counter) (s : State) : State :=
  s.mapBank x fun b => { b with records := b.records.withCount n (if n = .loss then b.fresh.loss else 0) }

end Sys2Proof.Machine
end

