-- ==== Sys2Proof/Machine/Token.lean ====
section
/-! DEFINITION. Tokens and doorbells (chapter 6). -/

namespace Sys2Proof.Machine

def State.setTokenResult (s : State) (x : Port) (code : TokenCode) (t : BitVec 4) (op : BitVec 2) : State :=
  s.mapTokenPort x fun p => { p with result := { code := code, token := t, op := op } }

/-- Release by the holder `y` (R113): hand-over to a waiting partner with its notice, or the token becomes free. -/
def releaseToken (y : Port) (t : BitVec 4) (s : State) : State :=
  let k := s.token t
  if k.wait.get y.other then
    (s.setToken t { holder := some y.other, wait := k.wait.set y.other false }).noteToken y.other t
  else s.setToken t { k with holder := none }

/-- A token command that is refused (R111). -/
def refuseToken (x : Port) (code : TokenCode) (t : BitVec 4) (op : BitVec 2) (s : State) : State :=
  (s.setTokenResult x code t op).countEvent x .refuse

/-- ACQUIRE past check 1 (R112). -/
def acquireToken (x : Port) (t : BitVec 4) (s : State) : State :=
  let k := s.token t
  match k.holder with
  | none => (s.setToken t { k with holder := some x }).setTokenResult x .granted t 1
  | some y =>
    if y = x then s.setTokenResult x .heldAlready t 1
    else (s.setToken t { k with wait := k.wait.set x true }).setTokenResult x .waiting t 1

/-- RELEASE past check 1 (R113). -/
def releaseOwnToken (x : Port) (t : BitVec 4) (s : State) : State :=
  if (s.token t).holder = some x then (releaseToken x t s).setTokenResult x .released t 2
  else refuseToken x .notHolder t 2 s

/-- CANCEL past check 1 (R114). -/
def cancelWait (x : Port) (t : BitVec 4) (s : State) : State :=
  let k := s.token t
  if k.wait.get x then (s.setToken t { k with wait := k.wait.set x false }).setTokenResult x .cancelled t 0
  else refuseToken x .notWaiting t 0 s

/-- FORCE_RELEASE past check 1, with check 2 (R111, R115). -/
def forceReleaseToken (x : Port) (t : BitVec 4) (s : State) : State :=
  if x = .B then refuseToken x .notPermitted t 3 s
  else match (s.token t).holder with
    | none => s.setTokenResult x .freeAlready t 3
    | some y => (releaseToken y t s).setTokenResult x .released t 3

/-- A write to TOKEN_COMMAND (R111). -/
def tokenCommand (x : Port) (w : Word) (s : State) : State :=
  let op : BitVec 2 := w.extractLsb' 0 2
  let t : BitVec 4 := w.extractLsb' 4 4
  if !s.isActive x then refuseToken x .absent t op s
  else if op = 0 then cancelWait x t s
  else if op = 1 then acquireToken x t s
  else if op = 2 then releaseOwnToken x t s
  else forceReleaseToken x t s

/-- The release of a lost or reset port's tokens and the clearing of its waiting flags, in index order (R117). -/
def releaseTokensOf (x : Port) (s : State) : State :=
  sixteen.foldl
    (fun s t =>
      let s := if (s.token t).holder = some x then releaseToken x t s else s
      s.setToken t { s.token t with wait := (s.token t).wait.set x false })
    s

/-- A write to TOKEN_NOTICE (R116). -/
def clearTokenNotice (x : Port) (w : Word) (s : State) : State :=
  s.mapBank x fun b => { b with tokens := { b.tokens with notice := clearFlags b.tokens.notice b.fresh.token w } }

/-- A write to DOORBELL_OUT rings in the partner's incoming set (R118). -/
def ringBells (x : Port) (w : Word) (s : State) : State :=
  s.mapBank x.other fun b =>
    { b with
      bells := { b.bells with incoming := b.bells.incoming ||| w.setWidth 16 }
      fresh := { b.fresh with bell := b.fresh.bell ||| w.setWidth 16 } }

/-- A write to DOORBELL_IN (R119). -/
def clearBells (x : Port) (w : Word) (s : State) : State :=
  s.mapBank x fun b => { b with bells := { b.bells with incoming := clearFlags b.bells.incoming b.fresh.bell w } }

/-- A write to DOORBELL_MASK (R120). -/
def writeBellMask (x : Port) (w : Word) (s : State) : State := s.mapBells x fun b => { b with mask := w.setWidth 16 }

end Sys2Proof.Machine
end

