-- ==== Sys2Proof/Machine/Event.lean ====
section
/-! DEFINITION. The writes and the claim of the event units (chapter 7). -/

namespace Sys2Proof.Machine

/-- A write to LINE_PENDING clears latches (R125). Positions of level lines have no latch. -/
def clearLatches (x : Port) (w : Word) (s : State) : State :=
  s.mapBank x fun b => { b with events := { b.events with latches := clearFlags b.events.latches b.fresh.latch w } }

/-- A write to LINE_ENABLE (R126). -/
def writeLineEnable (x : Port) (w : Word) (s : State) : State := s.mapEvents x fun e => { e with lineEnable := w.setWidth 16 }

/-- A write to ROUTE_LO or ROUTE_HI (R127). -/
def writeRoutes (x : Port) (hi : Bool) (w : Word) (s : State) : State :=
  s.mapEvents x fun e => if hi then { e with routeHi := legalRoutes w } else { e with routeLo := legalRoutes w }

/-- A write to TIER_CONTROL stores GE and the tier enables and then performs the soft requests: SOFT_SET wins over
SOFT_CLR (R128, R129). -/
def writeTierControl (x : Port) (w : Word) (s : State) : State :=
  s.mapEvents x fun e =>
    { e with
      ge := bit w 0, tierEnable := w.extractLsb' 1 4
      soft := (e.soft &&& ~~~(w.extractLsb' 12 4)) ||| w.extractLsb' 8 4 }

/-- What a read of CLAIM returns (R132). -/
def claimValue (s : State) (x : Port) : Word :=
  match claimTier s x with
  | none => 0
  | some n => place (BitVec.ofNat 3 n) 0 ||| place (BitVec.ofNat 5 (claimLine s x n)) 8

/-- The effect of a claim: the returned tier is in service (R132). -/
def claimEffect (x : Port) (s : State) : State :=
  match claimTier s x with
  | none => s
  | some n => s.mapEvents x fun e => { e with inService := e.inService ||| (1#4 <<< (n - 1)) }

/-- The most urgent tier in service (R133). -/
def serviceTier (e : EventUnit) : Option Nat := [1, 2, 3, 4].find? fun n => e.inService.getLsbD (n - 1)

/-- A write to DISMISS (R133). -/
def dismissTier (x : Port) (s : State) : State :=
  s.mapEvents x fun e =>
    match serviceTier e with
    | none => e
    | some n => { e with inService := e.inService &&& ~~~(1#4 <<< (n - 1)) }

end Sys2Proof.Machine
end

