-- ==== Sys2Proof/Machine/Cadence.lean ====
section
/-! DEFINITION. The timebase, the cadences and the cutoff unit (chapter 8). -/

namespace Sys2Proof.Machine

/-! ## Pulses (R148, R149) -/

/-- The pulse in progress is a counted one. -/
def Pulse.isCounted : Pulse → Bool
  | .counted _ => true
  | _ => false

/-- A pulse starts with the width held: it replaces a pulse in progress, and the flag names the kind overtaken. -/
def Cadence.startPulse (c : Cadence) : Cadence :=
  { c with
    overlap := c.overlap || c.pulse.isCounted
    freshOverlap := c.freshOverlap || c.pulse.isCounted
    ackOverrun := c.ackOverrun || c.pulse == .acknowledged
    freshAckOverrun := c.freshAckOverrun || c.pulse == .acknowledged
    pulse := if c.width = 0 then .acknowledged else .counted c.width }

/-- A timebase tick at which the cadence does not tick reduces a counted pulse, which ends when its count reaches 0. -/
def Pulse.countDown : Pulse → Pulse
  | .counted n => if n.toNat ≤ 1 then .off else .counted (n - 1)
  | p => p

def countPulse (k : BitVec 2) (s : State) : State := s.mapCadence k fun c => { c with pulse := c.pulse.countDown }

/-- A CAD_ACK write ends an acknowledged pulse and nothing else (R149). -/
def acknowledgePulse (k : BitVec 2) (s : State) : State :=
  s.mapCadence k fun c => { c with pulse := if c.pulse = .acknowledged then .off else c.pulse }

/-! ## The tick of a cadence (R147) -/

/-- Staged values are transferred (R144). -/
def Cadence.transfer (c : Cadence) : Cadence :=
  { c with
    period := if c.periodStaged then c.periodStage else c.period
    width := if c.widthStaged then c.widthStage else c.width
    periodStaged := false, widthStaged := false }

/-- Effect 8 of R147, without the flush: the next tick, or the end of a single shot. -/
def Cadence.schedule (c : Cadence) : Cadence :=
  if c.period = 0 then { c with state := .stopped } else { c with next := c.next + c.period.setWidth 48 }

/-- The eight effects of a tick of cadence `k`, in order. The flush of a single shot follows the last of them. -/
def cadenceTick (k : BitVec 2) (s : State) : State :=
  let s := s.mapCadence k fun c => { c with state := .running, ticks := c.ticks + 1 }
  let s := releaseBound k (s.latchBoth (lineCadence k))
  let s := captureFromTick k s
  let s := s.mapCadence k fun c => c.transfer.startPulse.schedule
  if (s.cadence k).period = 0 then releaseBound k s else s

/-- Cadence `k` ticks now: it is ARMED or RUNNING, and NEXT equals TIME (R147). -/
def cadenceDue (k : BitVec 2) (s : State) : Bool := (s.cadence k).live && (s.cadence k).next == s.time

/-- Cadence `k`'s turn of a timebase tick: it ticks, or its pulse counts (R147, R148). -/
def cadenceTurn (k : BitVec 2) (s : State) : State := if cadenceDue k s then cadenceTick k s else countPulse k s

/-! ## Arming and stopping (R145, R146) -/

/-- STOP: a live cadence stops, its pulse ends, and its conduits are flushed. -/
def stopCadence (k : BitVec 2) (s : State) : State :=
  if (s.cadence k).live then
    releaseBound k (s.mapCadence k fun c => { c with state := .stopped, pulse := .off })
  else s

/-- The start is late: the difference to TIME is 0 or at least 2^47. -/
def startLate (start now : Time) : Bool := start - now == 0 || (start - now).getLsbD 47

/-- The five effects of an accepted ARM. -/
def Cadence.armed (c : Cadence) (now : Time) : Cadence :=
  { c with
    cmdErr := false, late := startLate c.start now, overlap := false, ackOverrun := false
    freshOverlap := false, freshAckOverrun := false, pulse := .off, ticks := 0
    next := if startLate c.start now then now + 1 else c.start
    state := .armed }

/-- ARM is accepted: the cadence is IDLE or STOPPED, cutoff is NORMAL and no TIME load is pending. -/
def armAccepted (k : BitVec 2) (s : State) : Bool :=
  !(s.cadence k).live && !s.cutoff.active && s.timebase.pendingLoad.isNone

def armCadence (k : BitVec 2) (s : State) : State :=
  if armAccepted k s then s.mapCadence k (·.armed s.time) else s.mapCadence k fun c => { c with cmdErr := true }

/-- The CLR bits of a CAD_COMMAND write (R151). OVERLAP and ACK_OVERRUN set at this instant survive (R11). -/
def Cadence.clearFlags (c : Cadence) (w : Word) : Cadence :=
  { c with
    cmdErr := c.cmdErr && !bit w 8
    late := c.late && !bit w 9
    overlap := c.overlap && (!bit w 10 || c.freshOverlap)
    ackOverrun := c.ackOverrun && (!bit w 11 || c.freshAckOverrun) }

/-- A write to CAD_COMMAND: the clears, then STOP, then ARM (R145). -/
def writeCadCommand (k : BitVec 2) (w : Word) (s : State) : State :=
  let s := s.mapCadence k (·.clearFlags w)
  let s := if bit w 1 then stopCadence k s else s
  if bit w 0 then armCadence k s else s

/-! ## Configuration and staging (R143, R144) -/

def writeCadConfig (k : BitVec 2) (w : Word) (s : State) : State :=
  s.mapCadence k fun c => { c with outEn := bit w 0, polarity := bit w 1 }

def writeCadStartLo (k : BitVec 2) (w : Word) (s : State) : State :=
  s.mapCadence k fun c => { c with start := joinTime (hiHalf c.start) w }

def writeCadStartHi (k : BitVec 2) (w : Word) (s : State) : State :=
  s.mapCadence k fun c => { c with start := joinTime (w.setWidth 16) (loWord c.start) }

def writeCadPeriod (k : BitVec 2) (w : Word) (s : State) : State := s.mapCadence k fun c => { c with period := w }

def writeCadWidth (k : BitVec 2) (w : Word) (s : State) : State :=
  s.mapCadence k fun c => { c with width := w.setWidth 16 }

def stagePeriod (k : BitVec 2) (w : Word) (s : State) : State :=
  s.mapCadence k fun c => { c with periodStage := w, periodStaged := true }

def stageWidth (k : BitVec 2) (w : Word) (s : State) : State :=
  s.mapCadence k fun c => { c with widthStage := w.setWidth 16, widthStaged := true }

/-! ## The timebase (R138 to R142) -/

/-- The timebase's own part of a tick: TIME advances or takes the pending value, and the interval that begins is
measured with the PRESCALE in force (R138, R139, R142). -/
def Timebase.tick (b : Timebase) : Timebase :=
  { b with
    time := b.pendingLoad.getD (b.time + 1)
    pendingLoad := none
    left := b.prescale.toNat + 1 }

/-- Some cadence is ARMED or RUNNING. -/
def anyLive (s : State) : Bool := four.any fun k => (s.cadence k).live

/-- LOAD 1 (R141). -/
def requestLoad (s : State) : State :=
  if anyLive s then { s with timebase := { s.timebase with loadRefused := true } }
  else { s with timebase := { s.timebase with pendingLoad := some s.timebase.setValue, loadRefused := false } }

/-- A write to TIME_CONTROL: CLR_REFUSED first, then LOAD (R141). -/
def writeTimeControl (w : Word) (s : State) : State :=
  let s := if bit w 1 then { s with timebase := { s.timebase with loadRefused := false } } else s
  if bit w 0 then requestLoad s else s

def writeTimeSetLo (w : Word) (s : State) : State :=
  { s with timebase := { s.timebase with setValue := joinTime (hiHalf s.timebase.setValue) w } }

def writeTimeSetHi (w : Word) (s : State) : State :=
  { s with timebase := { s.timebase with setValue := joinTime (w.setWidth 16) (loWord s.timebase.setValue) } }

/-- A write to PRESCALE leaves the interval in progress alone (R139). -/
def writePrescale (w : Word) (s : State) : State :=
  { s with timebase := { s.timebase with prescale := w.setWidth 8 } }

/-- A read of TIME_LO loads the reader's shadow (R140). -/
def readTimeLo (x : Port) (s : State) : State := s.mapBank x fun b => { b with timeShadow := hiHalf s.time }

/-! ## Cutoff (R152, R153) -/

/-- A cadence stopped by cutoff or by a bridge reset: a live one becomes STOPPED and its conduits are flushed. -/
def haltCadence (k : BitVec 2) (s : State) : State :=
  if (s.cadence k).live then releaseBound k (s.mapCadence k fun c => { c with state := .stopped }) else s

/-- Every pulse of every cadence ends. -/
def endPulses (s : State) : State := four.foldl (fun s k => s.mapCadence k fun c => { c with pulse := .off }) s

/-- Entry into ACTIVE with a cause (R152). Line 15 follows the state. -/
def enterCutoff (cause : CutoffCause) (s : State) : State :=
  let s := { s with cutoff := { s.cutoff with active := true, cause := cause } }
  endPulses (four.foldl (fun s k => haltCadence k s) s)

/-- The pin demands a cutoff: PIN_EN is 1 and the two most recent samples are low (R152). -/
def Cutoff.pinDemand (c : Cutoff) : Bool := c.pinEn && !c.sample && !c.previous

/-- The detection test of an instant (R152). -/
def detectCutoff (s : State) : State :=
  if !s.cutoff.active && s.cutoff.pinDemand then enterCutoff .pin s else s

/-- CUTOFF_N is sampled (R152). -/
def sampleCutoff (s : State) : State :=
  { s with cutoff := { s.cutoff with previous := s.cutoff.sample, sample := s.pins.cutoffN } }

/-- A write to CUTOFF_TRIGGER (R152). -/
def softTrigger (w : Word) (s : State) : State :=
  if bit w 0 && !s.cutoff.active then enterCutoff .soft s else s

/-- CLEAR 1, evaluated with the PIN_EN just stored (R153). -/
def Cutoff.cleared (c : Cutoff) : Cutoff :=
  if !c.active then c
  else if !c.pinEn || c.sample then { c with active := false, clearRefused := false }
  else { c with clearRefused := true }

/-- A write to CUTOFF_CONTROL: PIN_EN, then CLEAR (R153). -/
def writeCutoffControl (w : Word) (s : State) : State :=
  let c := { s.cutoff with pinEn := bit w 0 }
  { s with cutoff := if bit w 1 then c.cleared else c }

end Sys2Proof.Machine
end

