-- ==== Sys2Proof/Machine/Liveness.lean ====
section
/-! DEFINITION. The liveness monitors (chapter 10): restart, counting, warning, expiry, rejoining. -/

namespace Sys2Proof.Machine

/-- The monitor counts: its port is ACTIVE and its limit is not 0 (R163). -/
def Monitor.counts (m : Monitor) : Bool := m.presence == .active && m.limit != 0

/-- A restart (R164). -/
def Monitor.restarted (m : Monitor) : Monitor := { m with count := 0, phase := 0, warned := false }

/-- A transaction restarts its port's monitor if the port was ACTIVE when the step began (R164). -/
def restartMonitor (x : Port) (wasActive : Bool) (s : State) : State :=
  if wasActive then s.mapMonitor x Monitor.restarted else s

/-- A write to LIVE_LIMIT_Y (R162). -/
def writeLiveLimit (y : Port) (w : Word) (s : State) : State :=
  s.mapMonitor y fun m => { m.restarted with limit := w.setWidth 16 }

/-- One tick advances the phase, and at 256 the count (R163). -/
def Monitor.advance (m : Monitor) : Monitor :=
  { m with phase := m.phase + 1, count := if m.phase = 255 then m.count + 1 else m.count }

/-- The warning is due: COUNT stands at L − (L div 2) and WARNED is 0 (R165). -/
def Monitor.warningDue (m : Monitor) : Bool :=
  m.counts && m.count.toNat == m.limit.toNat - m.limit.toNat / 2 && !m.warned

/-- The warning (R165). -/
def warn (x : Port) (s : State) : State := (s.mapMonitor x fun m => { m with warned := true }).latch x lineLiveWarn

/-- The expiry is due: COUNT stands at the limit (R166). -/
def Monitor.expiryDue (m : Monitor) : Bool := m.counts && m.count == m.limit

/-- The five effects of an expiry, in order (R166). -/
def expire (x : Port) (s : State) : State :=
  let s := s.mapMonitor x fun m => { m with presence := .absent, lastCause := .expired }
  releaseTokensOf x (revoke x true ((s.countEvent x .loss).latch x.other linePartner))

def warnIfDue (x : Port) (s : State) : State := if (s.bank x).monitor.warningDue then warn x s else s

def expireIfDue (x : Port) (s : State) : State := if (s.bank x).monitor.expiryDue then expire x s else s

/-- Port `x`'s monitor at a tick (R163): the warning test and then the expiry test follow an increment of COUNT. -/
def countLiveness (x : Port) (s : State) : State :=
  let m := (s.bank x).monitor
  if m.counts then
    let s := s.mapMonitor x Monitor.advance
    if m.phase = 255 then expireIfDue x (warnIfDue x s) else s
  else s

/-- REJOIN of port `x` (R168). A REJOIN of the very instant at which `x` expired finds `x` ABSENT, since internal events
precede steps (R10, R164), and rejoins it at once. R168 says that the two cannot meet at one instant, so this is the
model's reading (DEDUCED, log 17). -/
def rejoinPort (x : Port) (s : State) : State :=
  if s.isActive x then s
  else (s.mapMonitor x fun m => { m.restarted with presence := .active }).latch x.other linePartner

end Sys2Proof.Machine
end

