-- ==== Sys2Proof/Machine/Reset.lean ====
section
/-! DEFINITION. The three kinds of reset and initialization (chapter 11). -/

namespace Sys2Proof.Machine

/-! ## What a reset does to one port's bank -/

/-- Every latch, soft request and in-service flag becomes 0; the settings are kept (R137). -/
def EventUnit.cleared (e : EventUnit) : EventUnit := { e with latches := 0, soft := 0, inService := 0 }

/-- Results, SLOT_INFO and the four notice registers become 0. A reset is no clearing write, so nothing set earlier at
this instant survives it (R175, R11). -/
def Bank.clearNotices (b : Bank) : Bank :=
  { b with conduits := ConduitPort.reset, tokens := TokenPort.reset, fresh := Fresh.zero }

/-- DOORBELL_IN becomes 0 and the mask is kept. -/
def Bank.clearBells (b : Bank) : Bank := { b with bells := { b.bells with incoming := 0 } }

/-- Both records become EMPTY and the four counters 0 (R68). -/
def Bank.clearRecords (b : Bank) : Bank := { b with records := Records.reset }

def Bank.clearEvents (b : Bank) : Bank := { b with events := b.events.cleared }

/-- The TIME_HI shadow and the four CAP_TIME_HI shadows become 0. -/
def Bank.clearShadows (b : Bank) : Bank := { b with timeShadow := 0, capShadow := Table.all 2 0 }

/-- The monitor becomes ACTIVE with COUNT, phase and WARNED 0; its limit is kept. -/
def Monitor.revived (m : Monitor) (cause : LastCause) : Monitor :=
  { m.restarted with presence := .active, lastCause := cause }

/-- Port A's bank and then port B's. -/
def State.mapBoth (s : State) (f : Bank → Bank) : State := (s.mapBank .A f).mapBank .B f

/-! ## Bridge reset (R173) -/

/-- The conduits whose disabling discards something (step 1). -/
def inFlightConduits (s : State) : List (BitVec 4) := sixteen.filter fun n => (s.conduit n).enabled && (s.conduit n).inFlight

/-- Step 1: every conduit is disabled with a fresh table, and its sequence counter and CONFIG_ERROR become 0. -/
def resetConduits (s : State) : State :=
  sixteen.foldl (fun s n => s.mapConduit n fun c => { c.disabled with seq := 0, configError := 0 }) s

/-- Step 2: every token is free and no port waits. -/
def resetTokens (s : State) : State := { s with tokens := Table.all 4 Token.reset }

/-- Step 8: live cadences stop, pulses end, the sticky flags and LOAD_REFUSED become 0. -/
def resetCadences (s : State) : State :=
  let s := endPulses (four.foldl (fun s k => haltCadence k s) s)
  let s := four.foldl
    (fun s k => s.mapCadence k fun c =>
      { c with cmdErr := false, late := false, overlap := false, ackOverrun := false, freshOverlap := false,
               freshAckOverrun := false })
    s
  { s with timebase := { s.timebase with loadRefused := false } }

/-- Step 9, the capture records. -/
def resetCaptures (s : State) : State := four.foldl (fun s k => s.mapCapture k Capture.emptied) s

/-- Step 10, the cutoff unit: NORMAL, and then ACTIVE again where the pin demands it. -/
def resetCutoff (s : State) : State :=
  detectCutoff { s with cutoff := { s.cutoff with active := false, cause := .nothing, clearRefused := false } }

/-- The eleven steps of a bridge reset. -/
def bridgeReset (s : State) : State :=
  let noted := inFlightConduits s
  let s := resetTokens (resetConduits s)
  let s := s.mapBoth fun b => b.clearNotices.clearBells.clearRecords.clearEvents
  let s := resetCadences (requestSweep .B (requestSweep .A s))
  let s := (resetCaptures s).mapBoth fun b => { b.clearShadows with monitor := b.monitor.revived .nothing }
  noted.foldl (fun s n => (s.noteReset .A n).noteReset .B n) (resetCutoff s)

/-! ## Port reset (R174) -/

/-- The nine steps of a port reset of `x`. -/
def portReset (x : Port) (s : State) : State :=
  let s := requestSweep x (s.mapBank x fun b => b.clearEvents.clearRecords)
  let s := s.mapBank x fun b =>
    { b.clearBells.clearNotices.clearShadows with monitor := b.monitor.revived .reset }
  (releaseTokensOf x (revoke x false s)).latch x.other linePartner

/-- A write to BRIDGE_CONTROL (R17). -/
def writeBridgeControl (w : Word) (s : State) : State :=
  let s := if bit w 1 then { s with configLock := true } else s
  if bit w 0 then bridgeReset s else s

/-- A write to PORT_CONTROL: the port reset, then the rejoin (R18). -/
def writePortControl (x : Port) (w : Word) (s : State) : State :=
  let s := if bit w 0 then portReset x s else s
  if bit w 1 then rejoinPort x s else s

/-! ## Pin reset and initialization (R170 to R172) -/

/-- RESET_N sampled low (R170). The store's contents are a free value; what stands on the input pins and waits in the
queue lies outside the part. -/
def pinReset (s : State) : State :=
  { State.pinReset s.pins with
    pending := s.pending
    store := Memory.ofFree (Config.undefinedStore s.freeCount)
    freeCount := s.freeCount + 1 }

/-- One clock of initialization clears word number `n` of the store (R171). -/
def clearWord (n : Nat) (s : State) : State :=
  { s with store := Memory.storeWord s.store (BitVec.ofNat 16 n) 0, phase := .init (n + 1) }

/-- The sample history of CUTOFF_N restarts at the level that stands on the pin (Table 11.1; DESIGN CHOICE, log 4). -/
def restartSamples (s : State) : State :=
  { s with cutoff := { s.cutoff with sample := s.pins.cutoffN, previous := s.pins.cutoffN } }

/-- RESET_N sampled high after pin reset: the first clock of initialization (R171). -/
def startInit (s : State) : State :=
  match s.phase with
  | .held => clearWord 0 (restartSamples s)
  | _ => s

/-- The first instant of operation (R172): the timebase begins to count and CAP_IN is sampled for the first time. -/
def beginOperation (s : State) : State :=
  sampleCaptures
    { s with phase := .run, timebase := { s.timebase with left := s.timebase.prescale.toNat + 1 } }

end Sys2Proof.Machine
end

