-- ==== Sys2Proof/Machine/Clock.lean ====
section
/-! DEFINITION. One core clock: the passage to the next instant and its internal events in the order of R10. -/

namespace Sys2Proof.Machine

/-- The acknowledgement follows the take by one clock and lasts one clock (R1). -/
def Link.advance : Link → Link
  | .free => .free
  | .taken r => .acking r
  | .acking _ => .free

def advanceLinks (s : State) : State := { s with links := { a := s.links.a.advance, b := s.links.b.advance } }

/-- Nothing has been set at the instant that begins (R11). -/
def clearFresh (s : State) : State :=
  four.foldl (fun s k => s.mapCadence k fun c => { c with freshOverlap := false, freshAckOverrun := false })
    (s.mapBoth fun b => { b with fresh := Fresh.zero })

/-- The finished instant's state reaches the output pins, and the next instant begins. -/
def newInstant (s : State) : State := clearFresh (advanceLinks s.drivePins)

/-- CUTOFF_N is sampled and the detection test made: the first internal event of an instant (R10, R152). -/
def cutoffInstant (s : State) : State := detectCutoff (sampleCutoff s)

/-- The timebase's own part of a tick, which precedes the cadences (R10, R138). -/
def advanceTime (s : State) : State := { s with timebase := s.timebase.tick }

/-- The tick as far as the cadences: the timebase, then cadences 0 to 3 (R10). -/
def tickTime (s : State) : State := four.foldl (fun s k => cadenceTurn k s) (advanceTime s)

/-- The liveness counting of a tick: port A, then port B (R10, R163). -/
def tickLiveness (s : State) : State := countLiveness .B (countLiveness .A s)

/-- The divider reaches the end of the interval in progress (R139). -/
def tickDue (s : State) : Bool := decide (s.timebase.left ≤ 1)

/-- The divider counts a clock at which no tick falls. -/
def countDivider (s : State) : State := { s with timebase := { s.timebase with left := s.timebase.left - 1 } }

/-- The internal events of an instant of operation, in the order of R10. -/
def runEvents (s : State) : State :=
  let s := cutoffInstant s
  let due := tickDue s
  let s := sampleCaptures (if due then tickTime s else countDivider s)
  let s := if due then tickLiveness s else s
  advanceSweep .B (advanceSweep .A s)

/-- One core clock. While RESET_N is low nothing moves (R170). -/
def coreClock (s : State) : State :=
  match s.phase with
  | .held => s
  | .init n =>
    let s := sampleCutoff (advanceLinks s)
    if n < Config.initClocks then clearWord n s else beginOperation s
  | .run => runEvents (newInstant s)

/-- `n` core clocks. -/
def clocks : Nat → State → State
  | 0, s => s
  | n + 1, s => clocks n (coreClock s)

end Sys2Proof.Machine
end

