-- ==== Sys2Proof/Machine/RegisterFile.lean ====
section
/-! DEFINITION. The register file (chapter 1): what every register reads, what a write to it does, who may write it, and
the register checks in the order of R22. -/

namespace Sys2Proof.Machine

/-! ## Reads (R13) -/

/-- The words of a LATCHED deny record; an EMPTY record reads 0 (Tables 3.5, 3.6). -/
def denyInfo (r : DenyRecord) : Word :=
  flagAt true 0 ||| flagAt r.write 1 ||| place r.size 2 ||| place r.reason.code 4 ||| place r.access 8
    ||| place r.conduit 12

/-- Table 3.8. -/
def faultInfo (r : FaultRecord) : Word :=
  flagAt true 0 ||| flagAt r.write 1 ||| place r.size 2 ||| place r.reason.code 4 ||| flagAt r.lost 8

/-- Table 2.9. -/
def probeWord : Option ProbeResult → Word
  | none => 0
  | some r =>
    place r.outcome 0 ||| flagAt r.hit 4 ||| flagAt r.kind 5 ||| place r.access 6 ||| place r.target 8 ||| flagAt true 31

/-- Table 2.7. -/
def cacheStatus : Option (BitVec 6) → Word
  | none => 0
  | some i => flagAt true 0 ||| place i 8

/-- One port's byte of LIVE_STATUS (Table 10.2). -/
def liveBits (m : Monitor) : Word := flagAt (m.presence == .absent) 0 ||| flagAt m.warned 1 ||| place m.lastCause.code 2

/-- Tables 4.1 and 4.2. -/
def cfgWord (c : Conduit) : CfgReg → Word
  | .mode =>
    place c.mode 0 ||| flagAt (bitOfPort c.producer) 2 ||| place c.depth 4 ||| flagAt c.timed 8 ||| place c.cadence 9
      ||| flagAt c.holdOnLoss 12
  | .base => place c.base 0
  | .slot => place c.size 0

/-- Table 4.5. -/
def cfgStatus (c : Conduit) : Word :=
  flagAt c.enabled 0 ||| place c.configError 2 ||| flagAt c.filling.isSome 4 ||| flagAt c.reading.isSome 5
    ||| place c.seq 16

/-- Field STATE_i of CFG_OCCUPANCY (R84). -/
def occupancyField (c : Conduit) (i : BitVec 3) : BitVec 3 := if i.toNat < c.slotCount then (c.slotState i).code else 7

/-- Table 4.6. -/
def cfgOccupancy (c : Conduit) : Word :=
  ([0, 1, 2, 3, 4, 5, 6, 7] : List (BitVec 3)).foldl (fun acc i => acc ||| place (occupancyField c i) (3 * i.toNat)) 0
    ||| place (BitVec.ofNat 4 c.visible.length) 24 ||| place (BitVec.ofNat 4 c.ready.length) 28

/-- Table 5.3. -/
def conduitResult (r : ConduitResult) : Word :=
  place r.code.code 0 ||| place r.conduit 4 ||| place r.op 8 ||| place r.slot 12

/-- Table 6.3. -/
def tokenResult (r : TokenResult) : Word := place r.code.code 0 ||| place r.token 4 ||| place r.op 8

/-- TOKEN_STATE (Table 6.5). -/
def tokenState (s : State) : Word :=
  sixteen.foldl (fun acc t => acc ||| place (holderCode (s.token t).holder) (2 * t.toNat)) 0

/-- Port `x`'s TOKEN_WAIT (Table 6.5). -/
def tokenWait (s : State) (x : Port) : Word :=
  sixteen.foldl (fun acc t => acc ||| flagAt ((s.token t).wait.get x) t.toNat) 0

/-- Table 8.5. -/
def cadStatus (c : Cadence) : Word :=
  place c.state.code 0 ||| flagAt c.output 2 ||| flagAt c.periodStaged 3 ||| flagAt c.widthStaged 4 ||| flagAt c.cmdErr 8
    ||| flagAt c.late 9 ||| flagAt c.overlap 10 ||| flagAt c.ackOverrun 11 ||| place c.ticks 16

/-- CAP_CONFIG (Table 9.1). -/
def capConfig (c : Capture) : Word :=
  place c.source 0 ||| place c.edge 2 ||| flagAt c.mode 4 ||| flagAt (bitOfPort c.owner) 5 ||| place c.csel 8

/-- CAP_INFO (Table 9.1). -/
def capInfo (c : Capture) : Word := flagAt c.unread 0 ||| place c.cause.code 1 ||| flagAt c.overrun 3

/-- CUTOFF_STATUS (Table 8.6). -/
def cutoffStatus (c : Cutoff) : Word :=
  flagAt c.active 0 ||| place c.cause.code 1 ||| flagAt c.clearRefused 3 ||| flagAt c.sample 4

/-- BRIDGE_STATUS as port `x` reads it (R16). -/
def bridgeStatus (s : State) (x : Port) : Word :=
  flagAt (s.phase != .run) 0 ||| flagAt (s.phase == .run) 1 ||| flagAt s.configLock 2 ||| flagAt (x == .B) 3

/-- What a read of register `r` by port `x` returns (R13). -/
def regRead (s : State) (x : Port) (r : Reg) : Word :=
  let b := s.bank x
  match r with
  | .ident => Config.ident
  | .bridgeStatus => bridgeStatus s x
  | .bridgeControl => flagAt s.configLock 1
  | .liveLimit y => place (s.bank y).monitor.limit 0 ||| place (s.bank y).monitor.count 16
  | .liveStatus => liveBits (s.bank .A).monitor ||| (liveBits (s.bank .B).monitor <<< 8)
  | .viewBase => place b.view.base 0
  | .viewControl => flagAt b.view.enable 0 ||| flagAt b.view.direct 1
  | .probeAddr => place b.view.probeAddr 0 ||| flagAt b.view.probeWrite 31
  | .probeResult => probeWord b.view.probeResult
  | .probePhys => place b.view.probePhys 0
  | .cacheStatus => cacheStatus b.view.sweep
  | .denyInfo => (b.records.deny.map denyInfo).getD 0
  | .denyAddr => (b.records.deny.map fun d => place d.addr 0).getD 0
  | .denyTime => (b.records.deny.map fun d => d.time).getD 0
  | .faultInfo => (b.records.fault.map faultInfo).getD 0
  | .faultAddr => (b.records.fault.map fun f => place f.addr 0).getD 0
  | .faultTime => (b.records.fault.map fun f => f.time).getD 0
  | .counter n => place (b.records.count n) 0
  | .linePending => place (pendingLines s x) 0
  | .lineEnable => place b.events.lineEnable 0
  | .routeLo => b.events.routeLo
  | .routeHi => b.events.routeHi
  | .tierControl => flagAt b.events.ge 0 ||| place b.events.tierEnable 1
  | .tierStatus => place b.events.soft 0 ||| place b.events.inService 4
  | .claim => claimValue s x
  | .doorbellIn => place b.bells.incoming 0
  | .doorbellMask => place b.bells.mask 0
  | .tokenResult => tokenResult b.tokens.result
  | .tokenState => tokenState s
  | .tokenWait => tokenWait s x
  | .tokenNotice => place b.tokens.notice 0
  | .conduitResult => conduitResult b.conduits.result
  | .slotInfoSeq => place b.conduits.info.seq 0 ||| place b.conduits.info.length 16
  | .slotInfoTimeLo => loWord b.conduits.info.time
  | .slotInfoTimeHi => place (hiHalf b.conduits.info.time) 0
  | .commitNotice => place b.conduits.commitNotice 0
  | .drainNotice => place b.conduits.drainNotice 0
  | .resetNotice => place b.conduits.resetNotice 0
  | .cfg f c => cfgWord (s.conduit c) f
  | .cfgEnable c => flagAt (s.conduit c).enabled 0
  | .cfgStatus c => cfgStatus (s.conduit c)
  | .cfgOccupancy c => cfgOccupancy (s.conduit c)
  | .timeLo => loWord s.time
  | .timeHi => place b.timeShadow 0
  | .timeSetLo => loWord s.timebase.setValue
  | .timeSetHi => place (hiHalf s.timebase.setValue) 0
  | .prescale => place s.timebase.prescale 0
  | .timeStatus => flagAt s.timebase.pendingLoad.isSome 0 ||| flagAt s.timebase.loadRefused 1
  | .cadConfig k => flagAt (s.cadence k).outEn 0 ||| flagAt (s.cadence k).polarity 1
  | .cadStartLo k => loWord (s.cadence k).start
  | .cadStartHi k => place (hiHalf (s.cadence k).start) 0
  | .cadPeriod k => (s.cadence k).period
  | .cadPeriodStage k => (s.cadence k).periodStage
  | .cadWidth k => place (s.cadence k).width 0
  | .cadWidthStage k => place (s.cadence k).widthStage 0
  | .cadStatus k => cadStatus (s.cadence k)
  | .cadNextLo k => loWord (s.cadence k).next
  | .cadNextHi k => place (hiHalf (s.cadence k).next) 0
  | .capConfig k => capConfig (s.capture k)
  | .capInfo k => capInfo (s.capture k)
  | .capTimeLo k => loWord (s.capture k).time
  | .capTimeHi k => place (b.capShadow.get k) 0
  | .cutoffControl => flagAt s.cutoff.pinEn 0
  | .cutoffStatus => cutoffStatus s.cutoff
  | .portControl | .invalidate | .denyRelease | .faultRelease | .dismiss | .doorbellOut | .tokenCommand
  | .conduitCommand | .timeControl | .cadCommand _ | .cadAck _ | .cutoffTrigger => 0

/-- The side effect of a performed read: CLAIM, TIME_LO and CAP_TIME_LO act, every other read is free of effect. -/
def readEffect (x : Port) (r : Reg) (s : State) : State :=
  match r with
  | .claim => claimEffect x s
  | .timeLo => readTimeLo x s
  | .capTimeLo k => readCapTimeLo x k s
  | _ => s

/-! ## Who may write (Table 1.3, R19, R20) -/

/-- The Write column of Table 1.3. -/
inductive Writer where
  | readOnly
  | steward
  | own
  | either
  deriving DecidableEq, Repr

def writerOf : Reg → Writer
  | .ident | .bridgeStatus | .liveStatus | .probeResult | .probePhys | .cacheStatus | .denyInfo | .denyAddr | .denyTime
  | .faultInfo | .faultAddr | .faultTime | .tierStatus | .claim | .tokenResult | .tokenState | .tokenWait
  | .conduitResult | .slotInfoSeq | .slotInfoTimeLo | .slotInfoTimeHi | .cfgStatus _ | .cfgOccupancy _ | .timeLo | .timeHi
  | .timeStatus | .cadStatus _ | .cadNextLo _ | .cadNextHi _ | .capInfo _ | .capTimeLo _ | .capTimeHi _
  | .cutoffStatus => .readOnly
  | .bridgeControl | .liveLimit _ | .cfg _ _ | .cfgEnable _ | .timeSetLo | .timeSetHi | .prescale | .timeControl
  | .cadConfig _ | .cadStartLo _ | .cadStartHi _ | .cadPeriod _ | .cadPeriodStage _ | .cadWidth _ | .cadWidthStage _
  | .cadCommand _ | .capConfig _ | .cutoffControl => .steward
  | .portControl | .viewBase | .viewControl | .invalidate | .probeAddr | .denyRelease | .faultRelease | .counter _
  | .linePending | .lineEnable | .routeLo | .routeHi | .tierControl | .dismiss | .doorbellOut | .doorbellIn
  | .doorbellMask | .tokenCommand | .tokenNotice | .conduitCommand | .commitNotice | .drainNotice | .resetNotice => .own
  | .cadAck _ | .cutoffTrigger => .either

/-- The locked set of R20. -/
def inLockedSet : Reg → Bool
  | .cfg _ _ | .cadConfig _ | .cadStartLo _ | .cadStartHi _ | .cadPeriod _ | .cadWidth _ | .capConfig _ | .liveLimit _
  | .prescale => true
  | _ => false

/-- The lock refuses the write: the locked set (R20), and a CUTOFF_CONTROL write that would change PIN_EN (R21). -/
def lockRefuses (s : State) (r : Reg) (w : Word) : Bool :=
  s.configLock && (inLockedSet r || (r == .cutoffControl && bit w 0 != s.cutoff.pinEn))

/-- The configuration of an enabled conduit is closed (R72). -/
def configBusy (s : State) : Reg → Bool
  | .cfg _ c => (s.conduit c).enabled
  | _ => false

/-- Checks 6 to 8 of R22 for a write to a writable register. -/
def writeRefusal (s : State) (x : Port) (r : Reg) (w : Word) : Option FaultReason :=
  if writerOf r = .steward ∧ x = .B then some .privilege
  else if lockRefuses s r w then some .locked
  else if configBusy s r then some .configBusy
  else none

/-! ## Writes -/

/-- What a write of `w` to register `r` by port `x` does, every check passed. -/
def regWrite (x : Port) (r : Reg) (w : Word) (s : State) : State :=
  match r with
  | .bridgeControl => writeBridgeControl w s
  | .portControl => writePortControl x w s
  | .liveLimit y => writeLiveLimit y w s
  | .viewBase => writeViewBase x w s
  | .viewControl => writeViewControl x w s
  | .invalidate => writeInvalidate x w s
  | .probeAddr => writeProbe x w s
  | .denyRelease => releaseDeny x s
  | .faultRelease => releaseFault x s
  | .counter n => clearCounter x n s
  | .linePending => clearLatches x w s
  | .lineEnable => writeLineEnable x w s
  | .routeLo => writeRoutes x false w s
  | .routeHi => writeRoutes x true w s
  | .tierControl => writeTierControl x w s
  | .dismiss => dismissTier x s
  | .doorbellOut => ringBells x w s
  | .doorbellIn => clearBells x w s
  | .doorbellMask => writeBellMask x w s
  | .tokenCommand => tokenCommand x w s
  | .tokenNotice => clearTokenNotice x w s
  | .conduitCommand => conduitCommand x w s
  | .commitNotice => clearCommitNotice x w s
  | .drainNotice => clearDrainNotice x w s
  | .resetNotice => clearResetNotice x w s
  | .cfg f c => writeCfg f c w s
  | .cfgEnable c => writeCfgEnable c w s
  | .timeSetLo => writeTimeSetLo w s
  | .timeSetHi => writeTimeSetHi w s
  | .prescale => writePrescale w s
  | .timeControl => writeTimeControl w s
  | .cadConfig k => writeCadConfig k w s
  | .cadStartLo k => writeCadStartLo k w s
  | .cadStartHi k => writeCadStartHi k w s
  | .cadPeriod k => writeCadPeriod k w s
  | .cadPeriodStage k => stagePeriod k w s
  | .cadWidth k => writeCadWidth k w s
  | .cadWidthStage k => stageWidth k w s
  | .cadCommand k => writeCadCommand k w s
  | .cadAck k => acknowledgePulse k s
  | .capConfig k => writeCapConfig k w s
  | .cutoffControl => writeCutoffControl w s
  | .cutoffTrigger => softTrigger w s
  | .ident | .bridgeStatus | .liveStatus | .probeResult | .probePhys | .cacheStatus | .denyInfo | .denyAddr | .denyTime
  | .faultInfo | .faultAddr | .faultTime | .tierStatus | .claim | .tokenResult | .tokenState | .tokenWait
  | .conduitResult | .slotInfoSeq | .slotInfoTimeLo | .slotInfoTimeHi | .cfgStatus _ | .cfgOccupancy _ | .timeLo | .timeHi
  | .timeStatus | .cadStatus _ | .cadNextLo _ | .cadNextHi _ | .capInfo _ | .capTimeLo _ | .capTimeHi _
  | .cutoffStatus => s

/-- A register access past the width and assignment checks (R22, steps 5 to 8). -/
def regAccess (x : Port) (r : Reg) (op : BusOp) (s : State) : State × Verdict :=
  match op with
  | .read => (readEffect x r s, .okay (regRead s x r))
  | .write w =>
    if writerOf r = .readOnly then (s, .okay 0)
    else match writeRefusal s x r w with
      | some f => (s, .faulted f)
      | none => (regWrite x r w s, .okay 0)

/-- An aligned access of the register window (R7, R14, R22). -/
def windowAccess (x : Port) (off : BitVec 12) (size : BitVec 2) (op : BusOp) (s : State) : State × Verdict :=
  if size ≠ 2 then (s, .faulted .regWidth)
  else match Reg.ofOffset off with
    | none => (s, .faulted .regNone)
    | some r => regAccess x r op s

end Sys2Proof.Machine
end

