-- ==== Sys2Proof/Machine/Link.lean ====
section
/-! DEFINITION. The port links (chapter 1): the step of one transaction, the collision of two, and when the bridge takes
what a host presents. -/

namespace Sys2Proof.Machine

def State.link (s : State) (x : Port) : Link := s.links.get x

def State.setLink (s : State) (x : Port) (l : Link) : State := { s with links := s.links.set x l }

/-- The opening checks of R6 and the block that takes the access over. -/
def access (x : Port) (t : Txn) (s : State) : State × Verdict :=
  if !aligned t.addr t.size then (s, .faulted .misaligned)
  else match space t.addr with
    | .unmapped => (s, .faulted .unmapped)
    | .window off => windowAccess x off t.size t.op s
    | .view off => viewAccess x off t.size t.op s

/-- The whole step of a transaction of port `x` in operation, with its response: the access, the records and counters,
and the restart of the monitor (R8, R164). -/
def operate (x : Port) (t : Txn) (s : State) : State × Response :=
  let done := access x t s
  let judged := applyVerdict x t done.2 done.1
  (restartMonitor x (s.isActive x) judged.1, judged.2)

/-- The answer to a transaction during initialization: OKAY for the aligned 4-byte reads of IDENT and BRIDGE_STATUS,
FAULT INITIALIZING for everything else (R171). -/
def initResponse (s : State) (x : Port) (t : Txn) : Response :=
  if t.size = 2 ∧ t.op = .read ∧ t.addr = windowAddr Reg.ident.offset then
    { resp := .okay, rdata := regRead s x .ident }
  else if t.size = 2 ∧ t.op = .read ∧ t.addr = windowAddr Reg.bridgeStatus.offset then
    { resp := .okay, rdata := regRead s x .bridgeStatus }
  else { resp := .fault, rdata := 0 }

/-- The bridge takes port `x`'s transaction at this instant and performs its step (R1, R8, R171). While RESET_N is low
it takes none (R170). -/
def takeStep (x : Port) (t : Txn) (s : State) : State :=
  match s.phase with
  | .held => s
  | .init _ => s.setLink x (.taken (initResponse s x t))
  | .run =>
    let done := operate x t s
    done.1.setLink x (.taken done.2)

/-- Both ports' transactions taken at this instant: TURN's port goes first, and TURN then names the other (R9). -/
def takeBoth (ta tb : Txn) (s : State) : State :=
  match s.phase, s.turn with
  | .held, _ => s
  | _, .A => { takeStep .B tb (takeStep .A ta s) with turn := .B }
  | _, .B => { takeStep .A ta (takeStep .B tb s) with turn := .A }

/-- What the sender's link, and its rival's, present is taken at this instant. -/
def take (p : Sender) (t : Txn) (s : State) : State :=
  match p.rival, p.port with
  | none, x => takeStep x t s
  | some u, .A => takeBoth t u s
  | some u, .B => takeBoth u t s

/-- A transaction has been taken at this instant. -/
def stepTaken (s : State) : Bool :=
  [Port.A, Port.B].any fun x => match s.link x with | .taken _ => true | _ => false

/-- The instant can take the sender's transaction: no step has been taken at it yet, and no transaction of the ports
that present one is outstanding (R1). -/
def ready (p : Sender) (s : State) : Bool :=
  !stepTaken s && s.link p.port == .free && (p.rival.isNone || s.link p.port.other == .free)

/-- Core clocks pass until the instant at which the bridge takes the sender's transaction. Two always suffice (R1). -/
def awaitTake (p : Sender) (s : State) : State :=
  let s := if ready p s then s else coreClock s
  if ready p s then s else coreClock s

/-- A host presents a transaction: the bridge takes it at the first instant it can (R1). -/
def present (p : Sender) (t : Txn) (s : State) : State := take p t (awaitTake p s)

end Sys2Proof.Machine
end

