-- ==== Sys2Proof/Machine/ConduitCommands.lean ====
section
/-! DEFINITION. Meanings of the commands of the conduit engine. Each presents
the transaction of its row. -/

namespace Sys2Proof.Machine

/-- CONDUIT_CONFIG_WRITE (R72). -/
def execConduitConfigWrite (p : Sender) (r : CfgReg) (c : BitVec 4) (w : Word) (s : State) :
    Host.Outcome State Fault Refusal :=
  .next (present p (writeTo (.cfg r c) w) s)

/-- CONDUIT_ENABLE (R73): CFG_ENABLE written with ENABLE 1. -/
def execConduitEnable (p : Sender) (c : BitVec 4) (w : Word) (s : State) : Host.Outcome State Fault Refusal :=
  .next (present p (writeTo (.cfgEnable c) (fixedWord 1 0 w)) s)

/-- CONDUIT_DISABLE (R85): CFG_ENABLE written with ENABLE 0. -/
def execConduitDisable (p : Sender) (c : BitVec 4) (w : Word) (s : State) : Host.Outcome State Fault Refusal :=
  .next (present p (writeTo (.cfgEnable c) (fixedWord 0 1 w)) s)

/-- OPEN_WRITE (R96): CONDUIT_COMMAND written with OP 1. -/
def execOpenWrite (p : Sender) (w : Word) (s : State) : Host.Outcome State Fault Refusal :=
  .next (present p (writeTo .conduitCommand (commandWord 1 w)) s)

/-- COMMIT (R92): CONDUIT_COMMAND written with OP 2. -/
def execCommit (p : Sender) (w : Word) (s : State) : Host.Outcome State Fault Refusal :=
  .next (present p (writeTo .conduitCommand (commandWord 2 w)) s)

/-- ABANDON (R94): CONDUIT_COMMAND written with OP 3. -/
def execAbandon (p : Sender) (w : Word) (s : State) : Host.Outcome State Fault Refusal :=
  .next (present p (writeTo .conduitCommand (commandWord 3 w)) s)

/-- OPEN_READ (R97): CONDUIT_COMMAND written with OP 4. -/
def execOpenRead (p : Sender) (w : Word) (s : State) : Host.Outcome State Fault Refusal :=
  .next (present p (writeTo .conduitCommand (commandWord 4 w)) s)

/-- CONDUIT_RELEASE (R95): CONDUIT_COMMAND written with OP 5, the text's RELEASE. -/
def execConduitRelease (p : Sender) (w : Word) (s : State) : Host.Outcome State Fault Refusal :=
  .next (present p (writeTo .conduitCommand (commandWord 5 w)) s)

/-- RETURN (R97): CONDUIT_COMMAND written with OP 6. -/
def execReturnSlot (p : Sender) (w : Word) (s : State) : Host.Outcome State Fault Refusal :=
  .next (present p (writeTo .conduitCommand (commandWord 6 w)) s)

/-- BAD_OP (R89): CONDUIT_COMMAND written with OP 0 or 7 to 15. -/
def execBadOp (p : Sender) (w : Word) (s : State) : Host.Outcome State Fault Refusal :=
  .next (present p (writeTo .conduitCommand (badOpWord w)) s)

/-- COMMIT_NOTICE_CLEAR (R104). -/
def execCommitNoticeClear (p : Sender) (w : Word) (s : State) : Host.Outcome State Fault Refusal :=
  .next (present p (writeTo .commitNotice w) s)

/-- DRAIN_NOTICE_CLEAR (R104). -/
def execDrainNoticeClear (p : Sender) (w : Word) (s : State) : Host.Outcome State Fault Refusal :=
  .next (present p (writeTo .drainNotice w) s)

/-- RESET_NOTICE_CLEAR (R104). -/
def execResetNoticeClear (p : Sender) (w : Word) (s : State) : Host.Outcome State Fault Refusal :=
  .next (present p (writeTo .resetNotice w) s)

end Sys2Proof.Machine
end

