-- ==== Sys2Proof/Machine/EventCommands.lean ====
section
/-! DEFINITION. Meanings of the commands of the event units: each presents the transaction of its row. -/

namespace Sys2Proof.Machine

/-- LINE_PENDING_CLEAR (R125): LINE_PENDING written. -/
def execLinePendingClear (p : Sender) (w : Word) (s : State) : Host.Outcome State Fault Refusal :=
  .next (present p (writeTo .linePending w) s)

/-- ROUTE_WRITE (R127): ROUTE_LO (`hi = false`) or ROUTE_HI (`hi = true`) written. -/
def execRouteWrite (p : Sender) (hi : Bool) (w : Word) (s : State) : Host.Outcome State Fault Refusal :=
  .next (present p (writeTo (if hi then .routeHi else .routeLo) w) s)

/-- SOFT_SET (R129): TIER_CONTROL written with some SOFT_SET bit 1. -/
def execSoftSet (p : Sender) (w : Word) (s : State) : Host.Outcome State Fault Refusal :=
  .next (present p (writeTo .tierControl w) s)

/-- SOFT_CLR (R129): TIER_CONTROL written with no SOFT_SET bit and some SOFT_CLR bit 1. -/
def execSoftClr (p : Sender) (w : Word) (s : State) : Host.Outcome State Fault Refusal :=
  .next (present p (writeTo .tierControl (fixedWord 0 0xF00 w)) s)

/-- CLAIM (R132): the CLAIM register read. -/
def execClaim (p : Sender) (s : State) : Host.Outcome State Fault Refusal := .next (present p (readOf .claim) s)

/-- DISMISS (R133). -/
def execDismiss (p : Sender) (w : Word) (s : State) : Host.Outcome State Fault Refusal :=
  .next (present p (writeTo .dismiss w) s)

end Sys2Proof.Machine
end

