-- ==== Sys2Proof/Machine/InternalEvents.lean ====
section
/-! DEFINITION. Meanings of the rows that are no host's transaction. An internal event falls at the instants R10 gives
it and at no other: as a command of the queue it lets the core clock pass that brings it about, with every other internal
event of that instant, and where the state is not about to bring it about nothing happens (log 6). A pin row is the core
clock whose sample shows its level (log 7). -/

namespace Sys2Proof.Machine

/-! ## When an internal event falls -/

/-- An event of the next core clock: the clock passes where the event falls at it. None falls outside operation (R170,
R171). -/
def eventAtClock (falls : State → Bool) (s : State) : State := if s.phase == .run && falls s then coreClock s else s

/-- The instant before the next tick: the clocks of the interval in progress have passed but for the last (R139). -/
def beforeTick (s : State) : State := clocks (s.timebase.left - 1) s

/-- An event of the next tick: the clocks up to and with the tick pass where the event falls at it. -/
def eventAtTick (falls : State → Bool) (s : State) : State :=
  if s.phase == .run && falls (beforeTick s) then coreClock (beforeTick s) else s

/-- What the cadences find at the tick that the next core clock brings: cutoff is detected and TIME set (R10). -/
def tickFinds (s : State) : State := advanceTime (cutoffInstant (newInstant s))

/-- A sweep of port `x`'s cache runs (R44). -/
def sweepRuns (x : Port) (s : State) : Bool := (s.bank x).view.sweep.isSome

/-- Entry 63 is the next that port `x`'s sweep invalidates (R44). -/
def sweepEnds (x : Port) (s : State) : Bool := (s.bank x).view.sweep == some 63

/-- The sample of the next clock makes the pin demand a cutoff (R152). -/
def detectionFalls (s : State) : Bool := !s.cutoff.active && (sampleCutoff s).cutoff.pinDemand

/-- A load is pending (R142). -/
def loadWaits (s : State) : Bool := s.timebase.pendingLoad.isSome

/-- The next tick completes a unit of port `x`'s monitor, and the warning is due at the new COUNT (R163, R165). -/
def warningFalls (x : Port) (s : State) : Bool :=
  let m := (s.bank x).monitor
  m.phase == 255 && m.advance.warningDue

/-- The next tick completes a unit of port `x`'s monitor, and the new COUNT is the limit (R163, R166). -/
def expiryFalls (x : Port) (s : State) : Bool :=
  let m := (s.bank x).monitor
  m.phase == 255 && m.advance.expiryDue

/-- Cadence `k` ticks at the tick of the next clock (R147). -/
def cadenceFalls (k : BitVec 2) (s : State) : Bool := cadenceDue k (tickFinds s)

/-- At the tick of the next clock cadence `k` does not itself tick, and its counted pulse takes its last count (R148). -/
def pulseEndFalls (k : BitVec 2) (s : State) : Bool :=
  match ((tickFinds s).cadence k).pulse with
  | .counted n => decide (n.toNat ≤ 1) && !cadenceDue k (tickFinds s)
  | _ => false

/-! ## Internal events -/

/-- SWEEP_PROGRESS (R44) of port `x`'s cache: an internal event of the next core clock while a sweep runs. -/
def execSweepProgress (x : Port) (s : State) : Host.Outcome State Fault Refusal := .next (eventAtClock (sweepRuns x) s)

/-- SWEEP_END (R44) of port `x`'s cache: an internal event of the clock at which entry 63 is invalidated. -/
def execSweepEnd (x : Port) (s : State) : Host.Outcome State Fault Refusal := .next (eventAtClock (sweepEnds x) s)

/-- TICK (R138): an internal event. The clocks up to and with the next tick pass. -/
def execTick (s : State) : Host.Outcome State Fault Refusal := .next (eventAtTick (fun _ => true) s)

/-- TIME_LOAD_APPLY (R142): the tick that applies a pending load, an internal event. -/
def execTimeLoadApply (s : State) : Host.Outcome State Fault Refusal := .next (eventAtTick loadWaits s)

/-- LIVE_WARN (R165) of port `x`: an internal event of a tick. -/
def execLiveWarn (x : Port) (s : State) : Host.Outcome State Fault Refusal := .next (eventAtTick (warningFalls x) s)

/-- EXPIRY (R166) of port `x`: an internal event of a tick. -/
def execExpiry (x : Port) (s : State) : Host.Outcome State Fault Refusal := .next (eventAtTick (expiryFalls x) s)

/-- CADENCE_TICK (R147) of cadence `k`: an internal event of the tick at which the cadence is due. -/
def execCadenceTick (k : BitVec 2) (s : State) : Host.Outcome State Fault Refusal := .next (eventAtTick (cadenceFalls k) s)

/-- PULSE_END (R148) of cadence `k`: an internal event of the tick that takes the last count of a counted pulse. -/
def execPulseEnd (k : BitVec 2) (s : State) : Host.Outcome State Fault Refusal := .next (eventAtTick (pulseEndFalls k) s)

/-- CUTOFF_DETECTION (R152): an internal event of the clock whose sample makes the pin demand a cutoff. -/
def execCutoffDetection (s : State) : Host.Outcome State Fault Refusal := .next (eventAtClock detectionFalls s)

/-- INITIALIZATION_END (R172): an internal event of the clock after the 65,536th clock of initialization. -/
def execInitializationEnd (s : State) : Host.Outcome State Fault Refusal :=
  .next (if s.phase = .init Config.initClocks then coreClock s else s)

/-! ## Pins -/

/-- The pin levels `pins` with CAP_IN[k] at level `v`. -/
def withCapIn (pins : Pins) (k : BitVec 2) (v : Bool) : Pins :=
  let mask : BitVec 4 := 1#4 <<< k.toNat
  { pins with capIn := if v then pins.capIn ||| mask else pins.capIn &&& ~~~mask }

/-- The input pins take the levels `pins`, and the core clock that samples them passes, with its internal events in the
order of R10. While RESET_N is low only the pins move (R170). -/
def clockWithPins (pins : Pins) (s : State) : State := coreClock { s with pins := pins }

/-- CAPTURE_EDGE (R156): the level of CAP_IN[`k`] changes and the sample of the next clock shows the edge, which the
channel captures if it selects it. -/
def execCaptureEdge (k : BitVec 2) (e : PinEdge) (s : State) : Host.Outcome State Fault Refusal :=
  .next (clockWithPins (withCapIn e.pins k e.edge.level) s)

/-- UNMATCHED_EDGE (R156): a level change on CAP_IN[`k`] that the channel does not select. The sample of the next clock
shows it, and an edge that the channel does not select is discarded. -/
def execUnmatchedEdge (k : BitVec 2) (e : PinEdge) (s : State) : Host.Outcome State Fault Refusal :=
  .next (clockWithPins (withCapIn e.pins k e.edge.level) s)

/-- CUTOFF_PIN_LEVEL_CHANGE (R152): the level of CUTOFF_N becomes `level.level`, which the next clock samples. -/
def execCutoffPinLevelChange (level : PinLevel) (s : State) : Host.Outcome State Fault Refusal :=
  .next (clockWithPins { level.pins with cutoffN := level.level } s)

/-- PIN_RESET (R170): RESET_N sampled low. -/
def execPinReset (s : State) : Host.Outcome State Fault Refusal := .next (pinReset s)

/-- INITIALIZATION (R171): RESET_N sampled high after pin reset. -/
def execInitialization (s : State) : Host.Outcome State Fault Refusal := .next (startInit s)

end Sys2Proof.Machine
end

