-- ==== Sys2Proof/Machine/PortCommands.lean ====
section
/-! DEFINITION. Meanings of the generic accesses, bridge and port control, liveness limits. Each presents
the transaction of its row. -/

namespace Sys2Proof.Machine

/-- UNMAPPED_ACCESS (R6): a transaction addressed to neither space. -/
def execUnmappedAccess (p : Sender) (t : Txn) (s : State) : Host.Outcome State Fault Refusal := .next (present p t s)

/-- REGISTER_WRITE (R13): a write in the register window that is no row of its own. -/
def execRegisterWrite (p : Sender) (off : BitVec 12) (size : BitVec 2) (w : Word) (s : State) :
    Host.Outcome State Fault Refusal :=
  .next (present p { addr := windowAddr off, size := size, op := .write w } s)

/-- REGISTER_READ (R22): a read in the register window that is no row of its own. -/
def execRegisterRead (p : Sender) (off : BitVec 12) (size : BitVec 2) (s : State) : Host.Outcome State Fault Refusal :=
  .next (present p { addr := windowAddr off, size := size, op := .read } s)

/-- BRIDGE_RESET (R173): BRIDGE_CONTROL written with RESET 1. -/
def execBridgeReset (p : Sender) (w : Word) (s : State) : Host.Outcome State Fault Refusal :=
  .next (present p (writeTo .bridgeControl (fixedWord 1 0 w)) s)

/-- LOCK (R20): BRIDGE_CONTROL written with LOCK 1 and RESET 0. -/
def execLock (p : Sender) (w : Word) (s : State) : Host.Outcome State Fault Refusal :=
  .next (present p (writeTo .bridgeControl (fixedWord 2 1 w)) s)

/-- PORT_RESET (R174): PORT_CONTROL written with PORT_RESET 1. -/
def execPortReset (p : Sender) (w : Word) (s : State) : Host.Outcome State Fault Refusal :=
  .next (present p (writeTo .portControl (fixedWord 1 0 w)) s)

/-- REJOIN (R168): PORT_CONTROL written with REJOIN 1 and PORT_RESET 0. -/
def execRejoin (p : Sender) (w : Word) (s : State) : Host.Outcome State Fault Refusal :=
  .next (present p (writeTo .portControl (fixedWord 2 1 w)) s)

/-- LIVE_LIMIT_WRITE (R162) of port `y`'s limit. -/
def execLiveLimitWrite (p : Sender) (y : Port) (w : Word) (s : State) : Host.Outcome State Fault Refusal :=
  .next (present p (writeTo (.liveLimit y) w) s)

end Sys2Proof.Machine
end

