-- ==== Sys2Proof/Machine/RecordCommands.lean ====
section
/-! DEFINITION. Meanings of the commands of the record units: each presents the transaction of its row. -/

namespace Sys2Proof.Machine

/-- DENY_RELEASE (R59). -/
def execDenyRelease (p : Sender) (w : Word) (s : State) : Host.Outcome State Fault Refusal :=
  .next (present p (writeTo .denyRelease w) s)

/-- FAULT_RELEASE (R62). -/
def execFaultRelease (p : Sender) (w : Word) (s : State) : Host.Outcome State Fault Refusal :=
  .next (present p (writeTo .faultRelease w) s)

/-- COUNTER_CLEAR (R66) of counter `n`. -/
def execCounterClear (p : Sender) (n : Counter) (w : Word) (s : State) : Host.Outcome State Fault Refusal :=
  .next (present p (writeTo (.counter n) w) s)

end Sys2Proof.Machine
end

