-- ==== Sys2Proof/Machine/TimeCommands.lean ====
section
/-! DEFINITION. Meanings of the commands of timebase, cadences, cutoff and captures. Each presents
the transaction of its row. -/

namespace Sys2Proof.Machine

/-- TIME_LO_READ (R140): the TIME_LO register read. -/
def execTimeLoRead (p : Sender) (s : State) : Host.Outcome State Fault Refusal := .next (present p (readOf .timeLo) s)

/-- PRESCALE_WRITE (R139). -/
def execPrescaleWrite (p : Sender) (w : Word) (s : State) : Host.Outcome State Fault Refusal :=
  .next (present p (writeTo .prescale w) s)

/-- LOAD (R141): TIME_CONTROL written with LOAD 1. -/
def execLoad (p : Sender) (w : Word) (s : State) : Host.Outcome State Fault Refusal :=
  .next (present p (writeTo .timeControl (fixedWord 1 0 w)) s)

/-- CLR_REFUSED (R141): TIME_CONTROL written with CLR_REFUSED 1 and LOAD 0. -/
def execClrRefused (p : Sender) (w : Word) (s : State) : Host.Outcome State Fault Refusal :=
  .next (present p (writeTo .timeControl (fixedWord 2 1 w)) s)

/-- CAD_PERIOD_STAGE_WRITE (R144). -/
def execCadPeriodStageWrite (p : Sender) (k : BitVec 2) (w : Word) (s : State) : Host.Outcome State Fault Refusal :=
  .next (present p (writeTo (.cadPeriodStage k) w) s)

/-- CAD_WIDTH_STAGE_WRITE (R144). -/
def execCadWidthStageWrite (p : Sender) (k : BitVec 2) (w : Word) (s : State) : Host.Outcome State Fault Refusal :=
  .next (present p (writeTo (.cadWidthStage k) w) s)

/-- ARM (R145): CAD_COMMAND written with ARM 1. -/
def execArm (p : Sender) (k : BitVec 2) (w : Word) (s : State) : Host.Outcome State Fault Refusal :=
  .next (present p (writeTo (.cadCommand k) (fixedWord 1 0 w)) s)

/-- STOP (R146): CAD_COMMAND written with STOP 1 and ARM 0. -/
def execStop (p : Sender) (k : BitVec 2) (w : Word) (s : State) : Host.Outcome State Fault Refusal :=
  .next (present p (writeTo (.cadCommand k) (fixedWord 2 1 w)) s)

/-- CLR_CMD_ERR (R151): CAD_COMMAND written with CLR_CMD_ERR 1, ARM 0 and STOP 0. -/
def execClrCmdErr (p : Sender) (k : BitVec 2) (w : Word) (s : State) : Host.Outcome State Fault Refusal :=
  .next (present p (writeTo (.cadCommand k) (fixedWord 0x100 0x003 w)) s)

/-- CLR_LATE (R151): CAD_COMMAND written with CLR_LATE 1 and no bit of an earlier row. -/
def execClrLate (p : Sender) (k : BitVec 2) (w : Word) (s : State) : Host.Outcome State Fault Refusal :=
  .next (present p (writeTo (.cadCommand k) (fixedWord 0x200 0x103 w)) s)

/-- CLR_OVERLAP (R151): CAD_COMMAND written with CLR_OVERLAP 1 and no bit of an earlier row. -/
def execClrOverlap (p : Sender) (k : BitVec 2) (w : Word) (s : State) : Host.Outcome State Fault Refusal :=
  .next (present p (writeTo (.cadCommand k) (fixedWord 0x400 0x303 w)) s)

/-- CLR_ACK_OVERRUN (R151): CAD_COMMAND written with CLR_ACK_OVERRUN 1 and no bit of an earlier row. -/
def execClrAckOverrun (p : Sender) (k : BitVec 2) (w : Word) (s : State) : Host.Outcome State Fault Refusal :=
  .next (present p (writeTo (.cadCommand k) (fixedWord 0x800 0x703 w)) s)

/-- CAD_ACK (R149). -/
def execCadAck (p : Sender) (k : BitVec 2) (w : Word) (s : State) : Host.Outcome State Fault Refusal :=
  .next (present p (writeTo (.cadAck k) w) s)

/-- SOFT (R152): CUTOFF_TRIGGER written with SOFT 1. -/
def execSoft (p : Sender) (w : Word) (s : State) : Host.Outcome State Fault Refusal :=
  .next (present p (writeTo .cutoffTrigger (fixedWord 1 0 w)) s)

/-- CLEAR (R153): CUTOFF_CONTROL written with CLEAR 1. -/
def execClear (p : Sender) (w : Word) (s : State) : Host.Outcome State Fault Refusal :=
  .next (present p (writeTo .cutoffControl (fixedWord 2 0 w)) s)

/-- CUTOFF_CONTROL_WRITE (R21): CUTOFF_CONTROL written with CLEAR 0. -/
def execCutoffControlWrite (p : Sender) (w : Word) (s : State) : Host.Outcome State Fault Refusal :=
  .next (present p (writeTo .cutoffControl (fixedWord 0 2 w)) s)

/-- CAP_CONFIG_WRITE (R155). -/
def execCapConfigWrite (p : Sender) (k : BitVec 2) (w : Word) (s : State) : Host.Outcome State Fault Refusal :=
  .next (present p (writeTo (.capConfig k) w) s)

/-- CAP_TIME_LO_READ (R159): the CAP_TIME_LO register of channel `k` read. -/
def execCapTimeLoRead (p : Sender) (k : BitVec 2) (s : State) : Host.Outcome State Fault Refusal :=
  .next (present p (readOf (.capTimeLo k)) s)

end Sys2Proof.Machine
end

