-- ==== Sys2Proof/Machine/TokenCommands.lean ====
section
/-! DEFINITION. Meanings of the commands of the token and doorbell units: each presents the transaction of its row. -/

namespace Sys2Proof.Machine

/-- CANCEL (R114): TOKEN_COMMAND written with OP 0. -/
def execCancel (p : Sender) (w : Word) (s : State) : Host.Outcome State Fault Refusal :=
  .next (present p (writeTo .tokenCommand (tokenWord 0 w)) s)

/-- ACQUIRE (R112): TOKEN_COMMAND written with OP 1. -/
def execAcquire (p : Sender) (w : Word) (s : State) : Host.Outcome State Fault Refusal :=
  .next (present p (writeTo .tokenCommand (tokenWord 1 w)) s)

/-- TOKEN_RELEASE (R113): TOKEN_COMMAND written with OP 2, the text's RELEASE. -/
def execTokenRelease (p : Sender) (w : Word) (s : State) : Host.Outcome State Fault Refusal :=
  .next (present p (writeTo .tokenCommand (tokenWord 2 w)) s)

/-- FORCE_RELEASE (R115): TOKEN_COMMAND written with OP 3. -/
def execForceRelease (p : Sender) (w : Word) (s : State) : Host.Outcome State Fault Refusal :=
  .next (present p (writeTo .tokenCommand (tokenWord 3 w)) s)

/-- TOKEN_NOTICE_CLEAR (R116). -/
def execTokenNoticeClear (p : Sender) (w : Word) (s : State) : Host.Outcome State Fault Refusal :=
  .next (present p (writeTo .tokenNotice w) s)

/-- RING (R118): DOORBELL_OUT written. -/
def execRing (p : Sender) (w : Word) (s : State) : Host.Outcome State Fault Refusal :=
  .next (present p (writeTo .doorbellOut w) s)

/-- DOORBELL_CLEAR (R119): DOORBELL_IN written. -/
def execDoorbellClear (p : Sender) (w : Word) (s : State) : Host.Outcome State Fault Refusal :=
  .next (present p (writeTo .doorbellIn w) s)

end Sys2Proof.Machine
end

