-- ==== Sys2Proof/Machine/ViewCommands.lean ====
section
/-! DEFINITION. Meanings of the commands of the view units. Each presents
the transaction of its row. -/

namespace Sys2Proof.Machine

/-- VIEW_ACCESS (R34): an access at port address 100000h + `off`. -/
def execViewAccess (p : Sender) (off : BitVec 20) (size : BitVec 2) (op : BusOp) (s : State) :
    Host.Outcome State Fault Refusal :=
  .next (present p { addr := viewAddr off, size := size, op := op } s)

/-- VIEW_BASE_WRITE (R29). -/
def execViewBaseWrite (p : Sender) (w : Word) (s : State) : Host.Outcome State Fault Refusal :=
  .next (present p (writeTo .viewBase w) s)

/-- VIEW_CONTROL_WRITE (R30, R32). -/
def execViewControlWrite (p : Sender) (w : Word) (s : State) : Host.Outcome State Fault Refusal :=
  .next (present p (writeTo .viewControl w) s)

/-- SINGLE_INVALIDATION (R42): INVALIDATE written with ALL 0. -/
def execSingleInvalidation (p : Sender) (w : Word) (s : State) : Host.Outcome State Fault Refusal :=
  .next (present p (writeTo .invalidate (fixedWord 0 0x80000000 w)) s)

/-- INVALIDATE_ALL (R43): INVALIDATE written with ALL 1. -/
def execInvalidateAll (p : Sender) (w : Word) (s : State) : Host.Outcome State Fault Refusal :=
  .next (present p (writeTo .invalidate (fixedWord 0x80000000 0 w)) s)

/-- PROBE (R47): PROBE_ADDR written. -/
def execProbe (p : Sender) (w : Word) (s : State) : Host.Outcome State Fault Refusal :=
  .next (present p (writeTo .probeAddr w) s)

end Sys2Proof.Machine
end

