-- ==== Sys2Proof/Machine/Dispatch.lean ====
section
/-! DEFINITION. One arm per command: its meaning. -/

namespace Sys2Proof.Machine

def exec (i : Instr) (s : State) : Host.Outcome State Fault Refusal :=
  match i with
  | .viewAccess p off size op => Sys2Proof.Machine.execViewAccess p off size op s
  | .unmappedAccess p t => Sys2Proof.Machine.execUnmappedAccess p t s
  | .registerWrite p off size w => Sys2Proof.Machine.execRegisterWrite p off size w s
  | .bridgeReset p w => Sys2Proof.Machine.execBridgeReset p w s
  | .lock p w => Sys2Proof.Machine.execLock p w s
  | .portReset p w => Sys2Proof.Machine.execPortReset p w s
  | .rejoin p w => Sys2Proof.Machine.execRejoin p w s
  | .viewBaseWrite p w => Sys2Proof.Machine.execViewBaseWrite p w s
  | .viewControlWrite p w => Sys2Proof.Machine.execViewControlWrite p w s
  | .singleInvalidation p w => Sys2Proof.Machine.execSingleInvalidation p w s
  | .invalidateAll p w => Sys2Proof.Machine.execInvalidateAll p w s
  | .sweepProgress x => Sys2Proof.Machine.execSweepProgress x s
  | .sweepEnd x => Sys2Proof.Machine.execSweepEnd x s
  | .probe p w => Sys2Proof.Machine.execProbe p w s
  | .denyRelease p w => Sys2Proof.Machine.execDenyRelease p w s
  | .faultRelease p w => Sys2Proof.Machine.execFaultRelease p w s
  | .counterClear p n w => Sys2Proof.Machine.execCounterClear p n w s
  | .conduitConfigWrite p r c w => Sys2Proof.Machine.execConduitConfigWrite p r c w s
  | .conduitEnable p c w => Sys2Proof.Machine.execConduitEnable p c w s
  | .conduitDisable p c w => Sys2Proof.Machine.execConduitDisable p c w s
  | .openWrite p w => Sys2Proof.Machine.execOpenWrite p w s
  | .commit p w => Sys2Proof.Machine.execCommit p w s
  | .abandon p w => Sys2Proof.Machine.execAbandon p w s
  | .openRead p w => Sys2Proof.Machine.execOpenRead p w s
  | .conduitRelease p w => Sys2Proof.Machine.execConduitRelease p w s
  | .returnSlot p w => Sys2Proof.Machine.execReturnSlot p w s
  | .badOp p w => Sys2Proof.Machine.execBadOp p w s
  | .commitNoticeClear p w => Sys2Proof.Machine.execCommitNoticeClear p w s
  | .drainNoticeClear p w => Sys2Proof.Machine.execDrainNoticeClear p w s
  | .resetNoticeClear p w => Sys2Proof.Machine.execResetNoticeClear p w s
  | .cancel p w => Sys2Proof.Machine.execCancel p w s
  | .acquire p w => Sys2Proof.Machine.execAcquire p w s
  | .tokenRelease p w => Sys2Proof.Machine.execTokenRelease p w s
  | .forceRelease p w => Sys2Proof.Machine.execForceRelease p w s
  | .tokenNoticeClear p w => Sys2Proof.Machine.execTokenNoticeClear p w s
  | .ring p w => Sys2Proof.Machine.execRing p w s
  | .doorbellClear p w => Sys2Proof.Machine.execDoorbellClear p w s
  | .linePendingClear p w => Sys2Proof.Machine.execLinePendingClear p w s
  | .routeWrite p hi w => Sys2Proof.Machine.execRouteWrite p hi w s
  | .softSet p w => Sys2Proof.Machine.execSoftSet p w s
  | .softClr p w => Sys2Proof.Machine.execSoftClr p w s
  | .claim p => Sys2Proof.Machine.execClaim p s
  | .dismiss p w => Sys2Proof.Machine.execDismiss p w s
  | .timeLoRead p => Sys2Proof.Machine.execTimeLoRead p s
  | .prescaleWrite p w => Sys2Proof.Machine.execPrescaleWrite p w s
  | .load p w => Sys2Proof.Machine.execLoad p w s
  | .clrRefused p w => Sys2Proof.Machine.execClrRefused p w s
  | .tick => Sys2Proof.Machine.execTick s
  | .timeLoadApply => Sys2Proof.Machine.execTimeLoadApply s
  | .liveWarn x => Sys2Proof.Machine.execLiveWarn x s
  | .expiry x => Sys2Proof.Machine.execExpiry x s
  | .cadenceTick k => Sys2Proof.Machine.execCadenceTick k s
  | .pulseEnd k => Sys2Proof.Machine.execPulseEnd k s
  | .cadPeriodStageWrite p k w => Sys2Proof.Machine.execCadPeriodStageWrite p k w s
  | .cadWidthStageWrite p k w => Sys2Proof.Machine.execCadWidthStageWrite p k w s
  | .arm p k w => Sys2Proof.Machine.execArm p k w s
  | .stop p k w => Sys2Proof.Machine.execStop p k w s
  | .clrCmdErr p k w => Sys2Proof.Machine.execClrCmdErr p k w s
  | .clrLate p k w => Sys2Proof.Machine.execClrLate p k w s
  | .clrOverlap p k w => Sys2Proof.Machine.execClrOverlap p k w s
  | .clrAckOverrun p k w => Sys2Proof.Machine.execClrAckOverrun p k w s
  | .cadAck p k w => Sys2Proof.Machine.execCadAck p k w s
  | .cutoffDetection => Sys2Proof.Machine.execCutoffDetection s
  | .soft p w => Sys2Proof.Machine.execSoft p w s
  | .clear p w => Sys2Proof.Machine.execClear p w s
  | .cutoffControlWrite p w => Sys2Proof.Machine.execCutoffControlWrite p w s
  | .capConfigWrite p k w => Sys2Proof.Machine.execCapConfigWrite p k w s
  | .captureEdge k e => Sys2Proof.Machine.execCaptureEdge k e s
  | .capTimeLoRead p k => Sys2Proof.Machine.execCapTimeLoRead p k s
  | .liveLimitWrite p y w => Sys2Proof.Machine.execLiveLimitWrite p y w s
  | .pinReset => Sys2Proof.Machine.execPinReset s
  | .initialization => Sys2Proof.Machine.execInitialization s
  | .initializationEnd => Sys2Proof.Machine.execInitializationEnd s
  | .registerRead p off size => Sys2Proof.Machine.execRegisterRead p off size s
  | .cutoffPinLevelChange level => Sys2Proof.Machine.execCutoffPinLevelChange level s
  | .unmatchedEdge k e => Sys2Proof.Machine.execUnmatchedEdge k e s

end Sys2Proof.Machine
end

