-- ==== Sys2Proof/Safety.lean ====
section
/-! DEFINITION. The terms the claims use: a port whose transaction is taken now, what every answered transaction leaves
behind, and the invariants a safe run keeps. -/

namespace Sys2Proof.Machine

/-! ## Transactions -/

/-- Port `x` presents alone: the partner's link presents nothing at the same instant. -/
def solo (x : Port) : Sender := { port := x, rival := none }

/-- The part operates, and the bridge takes port `x`'s transaction at the present instant (R1, R172). -/
structure Takes (x : Port) (s : State) : Prop where
  runs  : s.phase = .run
  ready : ready (solo x) s = true

/-- What the handshake and the liveness monitor add to the effects `t` of a step of `x` that began in `s`: the response
waits for its acknowledgement (R1), and the monitor of a port ACTIVE at the step's beginning restarts (R164). -/
def answered (x : Port) (r : Response) (s t : State) : State :=
  { t with
    links := t.links.set x (.taken r)
    banks :=
      if (s.bank x).monitor.presence = .active then
        t.banks.map x fun b => { b with monitor := { b.monitor with count := 0, phase := 0, warned := false } }
      else t.banks }

/-- `c` is performed by `x` in `s`, answered OKAY with read data `d`, and its own effects lead to `t`. -/
def Performs (c : Instr) (x : Port) (d : Word) (s t : State) : Prop :=
  exec c s = .next (answered x { resp := .okay, rdata := d } s t)

/-- The fault record after a fault (R61): filled if EMPTY, kept with LOST set otherwise. -/
def faultAfter (old : Option FaultRecord) (t : Txn) (r : FaultReason) (now : Time) : FaultRecord :=
  match old with
  | some f => { f with lost := true }
  | none =>
    { write := isWrite t.op, size := t.size, reason := r, addr := t.addr, time := now.setWidth 32, lost := false }

/-- `c`, the transaction `t` of `x`, is refused with fault `r`: in `e`, the state that the walk left, only the fault record
and CNT_FAULT change, with line 14 latched where the counter reaches 255 (R3, R61, R64, R65). -/
def Faults (c : Instr) (x : Port) (t : Txn) (r : FaultReason) (s e : State) : Prop :=
  exec c s = .next (answered x { resp := .fault, rdata := 0 } s
    (e.mapBank x fun b =>
      let n := b.records.cntFault
      { b with
        records :=
          { b.records with
            fault := some (faultAfter b.records.fault t r e.time)
            cntFault := if n = 255 then 255 else n + 1 }
        events := { b.events with latches := if n = 254 then b.events.latches ||| 0x4000 else b.events.latches }
        fresh := { b.fresh with latch := if n = 254 then b.fresh.latch ||| 0x4000 else b.fresh.latch } }))

/-- `c` of `x` meets a deny condition with an EMPTY deny record: in `e`, the state that the walk left, the record is filled
with `rec`, CNT_DENY counts, and nothing else changes (R57, R64, R65). -/
def Denies (c : Instr) (x : Port) (rec : DenyRecord) (s e : State) : Prop :=
  exec c s = .next (answered x { resp := .deny, rdata := 0 } s
    (e.mapBank x fun b =>
      let n := b.records.cntDeny
      { b with
        records := { b.records with deny := some rec, cntDeny := if n = 255 then 255 else n + 1 }
        events := { b.events with latches := if n = 254 then b.events.latches ||| 0x4000 else b.events.latches }
        fresh := { b.fresh with latch := if n = 254 then b.fresh.latch ||| 0x4000 else b.fresh.latch } }))

/-- The refusal of a command that reached its block: CNT_REFUSE counts (R64, R65). -/
def refusedBank (b : Bank) : Bank :=
  let n := b.records.cntRefuse
  { b with
    records := { b.records with cntRefuse := if n = 255 then 255 else n + 1 }
    events := { b.events with latches := if n = 254 then b.events.latches ||| 0x4000 else b.events.latches }
    fresh := { b.fresh with latch := if n = 254 then b.fresh.latch ||| 0x4000 else b.fresh.latch } }

/-- The state after a walk of page `p` of a well-formed word `w` at table word `i` (R36, R37): the word is written back with
TOUCHED set where it was 0, and the entry is cached unless a sweep runs. -/
def walked (x : Port) (p : BitVec 10) (i : BitVec 16) (w : Word) (s : State) : State :=
  { s with
    store := if w.getLsbD 11 then s.store else Memory.storeWord s.store i (w ||| 0x800)
    banks := s.banks.map x fun b =>
      { b with view := { b.view with
          cache :=
            if b.view.sweep.isSome then b.view.cache
            else b.view.cache.set (p.extractLsb' 0 6)
              (some { tag := p.extractLsb' 6 4, kind := w.getLsbD 8, access := w.extractLsb' 9 2
                      target := w.extractLsb' 0 8 }) } } }

/-! ## What a register shows, read off the field tables -/

/-- The register word of a list of fields, each with the position of its lowest bit, its width and its value. Bits of no
field are 0 (R13). -/
def fieldsWord (fields : List (Nat × Nat × Nat)) : Word :=
  fields.foldr (fun f w => BitVec.ofNat 32 (f.2.2 % 2 ^ f.2.1) <<< f.1 ||| w) 0

/-- The halves of a 48-bit value in a LO and a HI register. -/
def loField (t : Time) : List (Nat × Nat × Nat) := [(0, 32, t.toNat)]

def hiField (t : Time) : List (Nat × Nat × Nat) := [(0, 16, t.toNat / 2 ^ 32)]

/-- A port as a one-bit field (Tables 4.1, 9.1). -/
def portNumber : Port → Nat
  | .A => 0
  | .B => 1

/-- Tables 3.5 and 3.1. -/
def denyInfoFields (d : DenyRecord) : List (Nat × Nat × Nat) :=
  let names : List DenyReason :=
    [.noAccess, .readOnly, .guarded, .malformed, .conduitOff, .absent, .noSlot, .direction, .beyondSlot]
  [(0, 1, 1), (1, 1, d.write.toNat), (2, 2, d.size.toNat), (4, 4, 1 + names.idxOf d.reason), (8, 2, d.access.toNat),
    (12, 4, d.conduit.toNat)]

/-- Tables 3.8 and 3.2. -/
def faultInfoFields (f : FaultRecord) : List (Nat × Nat × Nat) :=
  let names : List FaultReason :=
    [.unmapped, .misaligned, .regWidth, .regNone, .privilege, .locked, .configBusy, .initializing, .viewOff, .doubleDeny]
  [(0, 1, 1), (1, 1, f.write.toNat), (2, 2, f.size.toNat), (4, 4, 1 + names.idxOf f.reason), (8, 1, f.lost.toNat)]

/-- Tables 5.3 and 5.4. -/
def conduitResultFields (r : ConduitResult) : List (Nat × Nat × Nat) :=
  let names : List ConduitCode :=
    [.none, .done, .stale, .empty, .full, .notOwner, .notOpen, .alreadyOpen, .badLength, .disabled, .absent, .badOp]
  [(0, 4, names.idxOf r.code), (4, 4, r.conduit.toNat), (8, 4, r.op.toNat), (12, 3, r.slot.toNat)]

/-- Tables 6.3 and 6.4. -/
def tokenResultFields (r : TokenResult) : List (Nat × Nat × Nat) :=
  let names : List TokenCode :=
    [.none, .granted, .waiting, .released, .cancelled, .heldAlready, .freeAlready, .notHolder, .notWaiting,
      .notPermitted, .absent]
  [(0, 4, names.idxOf r.code), (4, 4, r.token.toNat), (8, 2, r.op.toNat)]

/-- One port's fields of LIVE_STATUS, from bit `lo` (Table 10.2). -/
def liveFields (m : Monitor) (lo : Nat) : List (Nat × Nat × Nat) :=
  let causes : List LastCause := [.nothing, .expired, .reset]
  [(lo, 1, if m.presence = .absent then 1 else 0), (lo + 1, 1, m.warned.toNat), (lo + 2, 2, causes.idxOf m.lastCause)]

/-- Table 4.6, with the states of Table 4.4 and the slot counts of Table 4.3. -/
def occupancyFields (c : Conduit) : List (Nat × Nat × Nat) :=
  let names : List SlotState := [.free, .filling, .ready, .visible, .reading]
  let count : Nat :=
    if c.mode = 0 then 1 else if c.mode = 1 then (if c.timed then 4 else 3) else if c.mode = 2 then c.depth.toNat + 1 else 0
  ((List.range 8).map fun i =>
      (3 * i, 3, if i < count then names.idxOf (c.slotState (BitVec.ofNat 3 i)) else 7))
    ++ [(24, 4, c.visible.length), (28, 4, c.ready.length)]

/-- Tables 8.5 and 8.2. -/
def cadStatusFields (c : Cadence) : List (Nat × Nat × Nat) :=
  let names : List CadState := [.idle, .armed, .running, .stopped]
  [(0, 2, names.idxOf c.state), (2, 1, if c.pulse = .off then 0 else 1), (3, 1, c.periodStaged.toNat),
    (4, 1, c.widthStaged.toNat), (8, 1, c.cmdErr.toNat), (9, 1, c.late.toNat), (10, 1, c.overlap.toNat),
    (11, 1, c.ackOverrun.toNat), (16, 16, c.ticks.toNat)]

/-- What register `r` shows to port `x`, field by field as its field table gives it (R13). Registers of access CMD alone
show 0; what a read of CLAIM returns is the claim's own affair (R132). -/
def fieldsOf (s : State) (x : Port) (r : Reg) : List (Nat × Nat × Nat) :=
  let b := s.bank x
  match r with
  | .ident => [(0, 8, 0x02), (8, 8, 0x60), (16, 8, 0x56)]
  | .bridgeStatus =>
    [(0, 1, if s.phase = .run then 0 else 1), (1, 1, if s.phase = .run then 1 else 0), (2, 1, s.configLock.toNat),
      (3, 1, portNumber x)]
  | .bridgeControl => [(1, 1, s.configLock.toNat)]
  | .liveLimit y => [(0, 16, (s.bank y).monitor.limit.toNat), (16, 16, (s.bank y).monitor.count.toNat)]
  | .liveStatus => liveFields (s.bank .A).monitor 0 ++ liveFields (s.bank .B).monitor 8
  | .viewBase => [(0, 6, b.view.base.toNat)]
  | .viewControl => [(0, 1, b.view.enable.toNat), (1, 1, b.view.direct.toNat)]
  | .probeAddr => [(0, 24, b.view.probeAddr.toNat), (31, 1, b.view.probeWrite.toNat)]
  | .probeResult =>
    match b.view.probeResult with
    | none => []
    | some p =>
      [(0, 4, p.outcome.toNat), (4, 1, p.hit.toNat), (5, 1, p.kind.toNat), (6, 2, p.access.toNat), (8, 8, p.target.toNat),
        (31, 1, 1)]
  | .probePhys => [(0, 18, b.view.probePhys.toNat)]
  | .cacheStatus =>
    match b.view.sweep with
    | none => []
    | some i => [(0, 1, 1), (8, 6, i.toNat)]
  | .denyInfo => (b.records.deny.map denyInfoFields).getD []
  | .denyAddr => (b.records.deny.map fun d => [(0, 24, d.addr.toNat)]).getD []
  | .denyTime => (b.records.deny.map fun d => [(0, 32, d.time.toNat)]).getD []
  | .faultInfo => (b.records.fault.map faultInfoFields).getD []
  | .faultAddr => (b.records.fault.map fun f => [(0, 24, f.addr.toNat)]).getD []
  | .faultTime => (b.records.fault.map fun f => [(0, 32, f.time.toNat)]).getD []
  | .counter .deny => [(0, 8, b.records.cntDeny.toNat)]
  | .counter .fault => [(0, 8, b.records.cntFault.toNat)]
  | .counter .refuse => [(0, 8, b.records.cntRefuse.toNat)]
  | .counter .loss => [(0, 8, b.records.cntLoss.toNat)]
  | .linePending => [(0, 16, (pendingLines s x).toNat)]
  | .lineEnable => [(0, 16, b.events.lineEnable.toNat)]
  | .routeLo => [(0, 32, b.events.routeLo.toNat)]
  | .routeHi => [(0, 32, b.events.routeHi.toNat)]
  | .tierControl => [(0, 1, b.events.ge.toNat), (1, 4, b.events.tierEnable.toNat)]
  | .tierStatus => [(0, 4, b.events.soft.toNat), (4, 4, b.events.inService.toNat)]
  | .doorbellIn => [(0, 16, b.bells.incoming.toNat)]
  | .doorbellMask => [(0, 16, b.bells.mask.toNat)]
  | .tokenResult => tokenResultFields b.tokens.result
  | .tokenState =>
    (List.range 16).map fun t =>
      (2 * t, 2, match (s.token (BitVec.ofNat 4 t)).holder with
        | none => 0
        | some .A => 1
        | some .B => 2)
  | .tokenWait => (List.range 16).map fun t => (t, 1, ((s.token (BitVec.ofNat 4 t)).wait.get x).toNat)
  | .tokenNotice => [(0, 16, b.tokens.notice.toNat)]
  | .conduitResult => conduitResultFields b.conduits.result
  | .slotInfoSeq => [(0, 16, b.conduits.info.seq.toNat), (16, 11, b.conduits.info.length.toNat)]
  | .slotInfoTimeLo => loField b.conduits.info.time
  | .slotInfoTimeHi => hiField b.conduits.info.time
  | .commitNotice => [(0, 16, b.conduits.commitNotice.toNat)]
  | .drainNotice => [(0, 16, b.conduits.drainNotice.toNat)]
  | .resetNotice => [(0, 16, b.conduits.resetNotice.toNat)]
  | .cfg .mode c =>
    let d := s.conduit c
    [(0, 2, d.mode.toNat), (2, 1, portNumber d.producer), (4, 3, d.depth.toNat), (8, 1, d.timed.toNat), (9, 2, d.cadence.toNat),
      (12, 1, d.holdOnLoss.toNat)]
  | .cfg .base c => [(0, 14, (s.conduit c).base.toNat)]
  | .cfg .slot c => [(0, 6, (s.conduit c).size.toNat)]
  | .cfgEnable c => [(0, 1, (s.conduit c).enabled.toNat)]
  | .cfgStatus c =>
    let d := s.conduit c
    [(0, 1, d.enabled.toNat), (2, 2, d.configError.toNat), (4, 1, d.filling.isSome.toNat), (5, 1, d.reading.isSome.toNat),
      (16, 16, d.seq.toNat)]
  | .cfgOccupancy c => occupancyFields (s.conduit c)
  | .timeLo => loField s.timebase.time
  | .timeHi => [(0, 16, b.timeShadow.toNat)]
  | .timeSetLo => loField s.timebase.setValue
  | .timeSetHi => hiField s.timebase.setValue
  | .prescale => [(0, 8, s.timebase.prescale.toNat)]
  | .timeStatus => [(0, 1, s.timebase.pendingLoad.isSome.toNat), (1, 1, s.timebase.loadRefused.toNat)]
  | .cadConfig k => [(0, 1, (s.cadence k).outEn.toNat), (1, 1, (s.cadence k).polarity.toNat)]
  | .cadStartLo k => loField (s.cadence k).start
  | .cadStartHi k => hiField (s.cadence k).start
  | .cadPeriod k => [(0, 32, (s.cadence k).period.toNat)]
  | .cadPeriodStage k => [(0, 32, (s.cadence k).periodStage.toNat)]
  | .cadWidth k => [(0, 16, (s.cadence k).width.toNat)]
  | .cadWidthStage k => [(0, 16, (s.cadence k).widthStage.toNat)]
  | .cadStatus k => cadStatusFields (s.cadence k)
  | .cadNextLo k => loField (s.cadence k).next
  | .cadNextHi k => hiField (s.cadence k).next
  | .capConfig k =>
    let c := s.capture k
    [(0, 2, c.source.toNat), (2, 2, c.edge.toNat), (4, 1, c.mode.toNat), (5, 1, portNumber c.owner), (8, 4, c.csel.toNat)]
  | .capInfo k =>
    let c := s.capture k
    let causes : List CapCause := [.nothing, .rising, .falling, .internal]
    [(0, 1, c.unread.toNat), (1, 2, causes.idxOf c.cause), (3, 1, c.overrun.toNat)]
  | .capTimeLo k => loField (s.capture k).time
  | .capTimeHi k => [(0, 16, (b.capShadow.get k).toNat)]
  | .cutoffControl => [(0, 1, s.cutoff.pinEn.toNat)]
  | .cutoffStatus =>
    let causes : List CutoffCause := [.nothing, .pin, .soft]
    [(0, 1, s.cutoff.active.toNat), (1, 2, causes.idxOf s.cutoff.cause), (3, 1, s.cutoff.clearRefused.toNat),
      (4, 1, s.cutoff.sample.toNat)]
  | .portControl | .invalidate | .denyRelease | .faultRelease | .claim | .dismiss | .doorbellOut | .tokenCommand
  | .conduitCommand | .timeControl | .cadCommand _ | .cadAck _ | .cutoffTrigger => []

/-! ## What several rules share, said on the states before and after -/

/-- No cache entry answers an access to page `p` with direction `write`: a sweep runs, or the entry at the page's index is
invalid, of another page, or of an ACCESS that does not permit it (R33). -/
def CacheMisses (v : ViewUnit) (p : BitVec 10) (write : Bool) : Prop :=
  v.sweep.isSome = true ∨
    ∀ e, v.cache.get (p.extractLsb' 0 6) = some e →
      e.tag ≠ p.extractLsb' 6 4 ∨ e.access = 0 ∨ (write = true ∧ e.access ≠ 3)

/-- ACCESS value `acc` permits the direction (Table 2.2). -/
def Permits (acc : BitVec 2) (write : Bool) : Prop := acc = 3 ∨ (write = false ∧ acc ≠ 0)


/-- Conduit `c` after its ready list became visible (R105). -/
def Conduit.flushed (c : Conduit) : Conduit :=
  { c with
    visible := if c.ready = [] then c.visible else if c.mode = 1 then c.ready else c.visible ++ c.ready
    ready := [] }

/-- From `s` to `t`, every enabled timed conduit bound to a cadence of `sel` releases its ready list, each consumer gets its
COMMIT notice where a slot moved, marked as set at this instant (R11), and nothing else changes (R102, R105, R106). -/
structure Flushed (sel : BitVec 2 → Prop) (s t : State) : Prop where
  bound : ∀ n, let c := s.conduit n
    c.enabled = true → c.timed = true → sel c.cadence → t.conduit n = c.flushed
  other : ∀ n, let c := s.conduit n
    ¬ (c.enabled = true ∧ c.timed = true ∧ sel c.cadence) → t.conduit n = c
  notice : ∀ y n, let c := s.conduit n
    (t.bank y).conduits.commitNotice.getLsbD n.toNat = true ↔
      (s.bank y).conduits.commitNotice.getLsbD n.toNat = true ∨
        (c.enabled = true ∧ c.timed = true ∧ sel c.cadence ∧ c.ready ≠ [] ∧ y = c.producer.other)
  fresh : ∀ y n, let c := s.conduit n
    (t.bank y).fresh.commit.getLsbD n.toNat = true ↔
      (s.bank y).fresh.commit.getLsbD n.toNat = true ∨
        (c.enabled = true ∧ c.timed = true ∧ sel c.cadence ∧ c.ready ≠ [] ∧ y = c.producer.other)
  banks : ∀ y, t.bank y =
    { s.bank y with
      conduits := { (s.bank y).conduits with commitNotice := (t.bank y).conduits.commitNotice }
      fresh := { (s.bank y).fresh with commit := (t.bank y).fresh.commit } }
  rest : t = { s with conduits := t.conduits, banks := t.banks }

/-- Conduit `c` after the revocation of port `x` (R107). -/
def Conduit.revoked (c : Conduit) (x : Port) : Conduit :=
  if x = c.producer then { c with filling := none }
  else match c.reading with
    | none => c
    | some i =>
      if c.mode = 1 then
        { c with reading := none, visible := if c.visible = [] ∧ c.ready = [] then [i] else c.visible }
      else { c with reading := none, visible := i :: c.visible }

/-- A token after its release by holder `y` (R113). -/
def Token.passed (k : Token) (y : Port) : Token :=
  if k.wait.get y.other = true then { holder := some y.other, wait := k.wait.set y.other false }
  else { k with holder := none }

/-- A token after the loss or reset of port `x` (R117). -/
def Token.withdrawn (k : Token) (x : Port) : Token :=
  let k := if k.holder = some x then k.passed x else k
  { k with wait := k.wait.set x false }

/-- A capture event on channel `c`'s record (R158). -/
def Capture.after (c : Capture) (t : Time) (cause : CapCause) : Capture :=
  if c.unread = true ∧ c.mode = false then { c with overrun := true }
  else { c with time := t, cause := cause, unread := true, overrun := if c.unread then true else c.overrun }

/-- The edge on CAP_IN[k] that a sample at level `v` shows is one that channel `c` selects (R156). -/
abbrev Capture.Selects (c : Capture) (v : Bool) : Prop :=
  c.sample = some (!v) ∧ c.source = 1 ∧ (c.edge = 2 ∨ (c.edge = 0 ∧ v = true) ∨ (c.edge = 1 ∧ v = false))

/-- Channel `c` after the pin's sample at level `v` (R156): an edge it selects is captured, and the sample is the newest. -/
def Capture.sampled (c : Capture) (v : Bool) (t : Time) : Capture :=
  { (if c.Selects v then c.after t (if v then .rising else .falling) else c) with sample := some v }

/-- The sample of the next core clock demands a cutoff (R152). -/
abbrev PinDemands (s : State) : Prop :=
  s.cutoff.active = false ∧ s.cutoff.pinEn = true ∧ s.pins.cutoffN = false ∧ s.cutoff.sample = false

/-- TIME as the next tick sets it (R138, R142). -/
def nextTime (b : Timebase) : Time := b.pendingLoad.getD (b.time + 1)

/-- A cadence is ARMED or RUNNING (Table 8.2). -/
abbrev Cadence.Live (c : Cadence) : Prop := c.state = .armed ∨ c.state = .running

/-- Cadence `k` ticks where the next core clock brings a tick (R147): no cutoff is entered before its turn (R10). -/
abbrev TicksNext (s : State) (k : BitVec 2) : Prop :=
  ¬ PinDemands s ∧ (s.cadence k).Live ∧ (s.cadence k).next = nextTime s.timebase

/-- Port `x`'s monitor counts (R163). -/
abbrev Monitor.Counting (m : Monitor) : Prop := m.presence = .active ∧ m.limit ≠ 0

/-- A tick brings COUNT to the threshold of the warning (R165). -/
abbrev Monitor.WarnsNext (m : Monitor) : Prop :=
  m.Counting ∧ m.phase = 255 ∧ (m.count + 1).toNat = m.limit.toNat - m.limit.toNat / 2 ∧ m.warned = false

/-- A tick brings COUNT to the limit (R166). -/
abbrev Monitor.ExpiresNext (m : Monitor) : Prop := m.Counting ∧ m.phase = 255 ∧ m.count + 1 = m.limit

/-- A counting monitor after one tick, as far as COUNT, phase and WARNED (R163, R165). -/
def Monitor.counted (m : Monitor) : Monitor :=
  { m with
    phase := m.phase + 1, count := if m.phase = 255 then m.count + 1 else m.count
    warned := m.warned || decide m.WarnsNext }

/-- Tier `n` is eligible in port `x`'s unit, in the words of R130. -/
def TierEligible (s : State) (x : Port) (n : Nat) : Prop :=
  let e := (s.bank x).events
  (e.soft.getLsbD (n - 1) = true ∨
    ∃ l < 16, (pendingLines s x).getLsbD l = true ∧ e.lineEnable.getLsbD l = true ∧ (e.route l).toNat = n) ∧
  e.ge = true ∧ e.tierEnable.getLsbD (n - 1) = true ∧ ∀ m, 1 ≤ m → m ≤ n → e.inService.getLsbD (m - 1) = false

/-! ## Invariants -/

/-- The store keeps its canonical form. -/
def State.StoreCanonical (s : State) : Prop := Memory.wf s.store = true

/-- R110, R117: only the partner of a holder waits, and an ABSENT port neither holds nor waits. -/
structure State.TokensSound (s : State) : Prop where
  waits  : ∀ t x, (s.token t).wait.get x = true → (s.token t).holder = some x.other
  absent : ∀ t x, s.isActive x = false → (s.token t).holder ≠ some x ∧ (s.token t).wait.get x = false

/-- R142, R145, R152, R148: while cutoff is ACTIVE no cadence is live and no pulse runs, while a load is pending no cadence
is live, and a running counted pulse has a count left. -/
structure State.TimingSound (s : State) : Prop where
  cutoff : s.cutoff.active = true → ∀ k, (s.cadence k).live = false ∧ (s.cadence k).pulse = .off
  load   : s.timebase.pendingLoad.isSome = true → ∀ k, (s.cadence k).live = false
  count  : ∀ k, (s.cadence k).pulse ≠ .counted 0

/-- The slots that the records of a conduit speak of. -/
def Conduit.usedSlots (c : Conduit) : List (BitVec 3) :=
  c.filling.toList ++ (c.reading.toList ++ (c.ready ++ c.visible))

/-- One conduit's slot table (R74, R77, R85, R93, R99): a disabled conduit uses no slot, no slot is used twice, every used
slot exists, a READY slot waits for a live cadence, and LATEST keeps at most one VISIBLE and one READY slot. -/
structure ConduitSound (s : State) (c : Conduit) : Prop where
  idle     : c.enabled = false → c.usedSlots = []
  distinct : c.usedSlots.Nodup
  bounded  : ∀ i ∈ c.usedSlots, i.toNat < c.slotCount
  gates    : c.ready ≠ [] → gated s c = true
  latest   : c.isLatest = true → c.visible.length ≤ 1 ∧ c.ready.length ≤ 1

/-- Every conduit's slot table is sound. -/
def State.ConduitsSound (s : State) : Prop := ∀ n, ConduitSound s (s.conduit n)

end Sys2Proof.Machine
end

