-- ==== Sys2Proof/WellFormed.lean ====
section
/-! DEFINITION. Which terms of `Instr` are commands of their row: the written word carries the bits that name the
row, and a generic access is none of the rows of its own. -/

namespace Sys2Proof

open Sys2Proof.Machine (bit)

/-- The checks of each constructor. -/
def Instr.wellFormed : Instr → Bool
  | .unmappedAccess _ t => space t.addr == .unmapped
  | .registerWrite p off size w => (ownRow p off size (.write w)).isNone
  | .registerRead p off size => (ownRow p off size .read).isNone
  | .bridgeReset _ w => bit w 0
  | .lock _ w => bit w 1 && !bit w 0
  | .portReset _ w => bit w 0
  | .rejoin _ w => bit w 1 && !bit w 0
  | .singleInvalidation _ w => !bit w 31
  | .invalidateAll _ w => bit w 31
  | .conduitEnable _ _ w => bit w 0
  | .conduitDisable _ _ w => !bit w 0
  | .openWrite _ w => w.extractLsb' 0 4 == 1
  | .commit _ w => w.extractLsb' 0 4 == 2
  | .abandon _ w => w.extractLsb' 0 4 == 3
  | .openRead _ w => w.extractLsb' 0 4 == 4
  | .conduitRelease _ w => w.extractLsb' 0 4 == 5
  | .returnSlot _ w => w.extractLsb' 0 4 == 6
  | .badOp _ w => isBadOp (w.extractLsb' 0 4)
  | .cancel _ w => w.extractLsb' 0 2 == 0
  | .acquire _ w => w.extractLsb' 0 2 == 1
  | .tokenRelease _ w => w.extractLsb' 0 2 == 2
  | .forceRelease _ w => w.extractLsb' 0 2 == 3
  | .softSet _ w => w.extractLsb' 8 4 != 0
  | .softClr _ w => w.extractLsb' 8 4 == 0 && w.extractLsb' 12 4 != 0
  | .load _ w => bit w 0
  | .clrRefused _ w => bit w 1 && !bit w 0
  | .arm _ _ w => bit w 0
  | .stop _ _ w => bit w 1 && !bit w 0
  | .clrCmdErr _ _ w => bit w 8 && !bit w 0 && !bit w 1
  | .clrLate _ _ w => bit w 9 && !bit w 0 && !bit w 1 && !bit w 8
  | .clrOverlap _ _ w => bit w 10 && !bit w 0 && !bit w 1 && !bit w 8 && !bit w 9
  | .clrAckOverrun _ _ w => bit w 11 && !bit w 0 && !bit w 1 && !bit w 8 && !bit w 9 && !bit w 10
  | .soft _ w => bit w 0
  | .clear _ w => bit w 1
  | .cutoffControlWrite _ w => !bit w 1
  | .viewAccess _ _ _ _ | .viewBaseWrite _ _ | .viewControlWrite _ _ | .sweepProgress _ | .sweepEnd _ | .probe _ _
  | .denyRelease _ _ | .faultRelease _ _ | .counterClear _ _ _ | .conduitConfigWrite _ _ _ _ | .commitNoticeClear _ _
  | .drainNoticeClear _ _ | .resetNoticeClear _ _ | .tokenNoticeClear _ _ | .ring _ _ | .doorbellClear _ _
  | .linePendingClear _ _ | .routeWrite _ _ _ | .claim _ | .dismiss _ _ | .timeLoRead _ | .prescaleWrite _ _ | .tick
  | .timeLoadApply | .liveWarn _ | .expiry _ | .cadenceTick _ | .pulseEnd _ | .cadPeriodStageWrite _ _ _
  | .cadWidthStageWrite _ _ _ | .cadAck _ _ _ | .cutoffDetection | .capConfigWrite _ _ _ | .captureEdge _ _
  | .capTimeLoRead _ _ | .liveLimitWrite _ _ _ | .pinReset | .initialization | .initializationEnd
  | .cutoffPinLevelChange _ | .unmatchedEdge _ _ => true

end Sys2Proof
end

