-- ==== Sys2Proof/Certificates/Slice0/Obligations.lean ====
section
/-! DEFINITION. The statements for the provers. Each docstring names the rules it formalises; where a clause rests on a
choice of the model, it says so and names the log entry. -/

open Sys2Proof Sys2Proof.Machine

/-! ## Queue, links, order of steps -/

/-- The command at the front of the queue runs on the state with the queue's rest. -/
def Obligations.FrontCommandRuns : Prop :=
  ∀ (c : Instr) (rest : List Instr) (s : State), s.pending = c :: rest → step s = exec c { s with pending := rest }

/-- R1, and the model's choices of what a step with an empty queue does (log 1) and at which instant a presented command
is taken (log 2). With nothing waiting a step is one core clock, and nothing while RESET_N is low (R170). The
acknowledgement follows the take by exactly one core clock and lasts one clock, after which the next transaction can be
taken. A host command that cannot be taken at this instant is the same command one core clock later. -/
def Obligations.ClocksMoveTheHandshake : Prop :=
  ∀ s : State,
    (s.pending = [] → step s = .next (coreClock s) ∧ (s.phase = .held → step s = .next s)) ∧
    (∀ x r, s.phase = .run → s.link x = .taken r →
      (coreClock s).link x = .acking r ∧ (coreClock (coreClock s)).link x = .free) ∧
    (∀ c p t, Instr.request c = some (p, t) → ready p s = false → exec c s = exec c (coreClock s))

/-- No command touches the queue: what waits behind it stays, in order. -/
def Obligations.CommandsKeepTheQueue : Prop :=
  ∀ (c : Instr) (s : State), ∃ t, exec c s = .next t ∧ t.pending = s.pending

/-- R9, R171: two transactions taken at one instant, in operation or in initialization, are two whole steps. TURN's port
goes first, the other second on the state the first left, and TURN then names the port that went second. During
initialization each is answered FAULT INITIALIZING, or OKAY if it is the 4-byte read of IDENT or BRIDGE_STATUS, and but for
the links TURN is all that changes. That two queued transactions meet at one instant is the model's choice (log 2). -/
def Obligations.TurnOrdersCollidingSteps : Prop :=
  ∀ (c : Instr) (x : Port) (t u : Txn) (s : State),
    s.phase ≠ .held → ready { port := x, rival := some u } s = true →
    c.request = some ({ port := x, rival := some u }, t) →
    let txn (y : Port) : Txn := if y = x then t else u
    let one := takeStep s.turn (txn s.turn) s
    let two := takeStep s.turn.other (txn s.turn.other) one
    let reads (y : Port) (a : PortAddr) : Prop := (txn y).size = 2 ∧ (txn y).op = .read ∧ (txn y).addr = a
    exec c s = .next { two with turn := s.turn.other } ∧ two.turn = s.turn ∧
    (s.phase ≠ .run → { two with links := s.links } = s ∧ ∀ y,
      two.link y = .taken
        (if reads y 0x000000 then { resp := .okay, rdata := 0x00566002 }
         else if reads y 0x000004 then { resp := .okay, rdata := fieldsWord (fieldsOf s y .bridgeStatus) }
         else { resp := .fault, rdata := 0 }))

/-- R11, the example of section 1.3: a doorbell cleared and rung at one instant is set after it, whichever step TURN
puts first; a bell that was set and is not rung again is cleared. -/
def Obligations.RingSurvivesClearAtOneInstant : Prop :=
  ∀ (w v : Word) (s : State), s.phase = .run →
    ready { port := .A, rival := some (writeTo .doorbellOut v) } s = true → s.banks.a.fresh.bell = 0 →
    ∃ t, exec (.doorbellClear { port := .A, rival := some (writeTo .doorbellOut v) } w) s = .next t ∧
      t.banks.a.bells.incoming = (s.banks.a.bells.incoming &&& ~~~(w.setWidth 16)) ||| v.setWidth 16

/-! ## Commands and transactions -/

/-- Every transaction a host can present is the transaction of exactly one well-formed command, the one it is classified
as: no bit of a transaction is lost, and none is invented (Tables 1.2 and 1.3, R22). Which row a transaction that fits
several rows belongs to is the model's choice (log 14). No register stands at two offsets, and no two share one. -/
def Obligations.EveryTransactionIsOneCommand : Prop :=
  (∀ (p : Sender) (t : Txn), (Instr.ofTxn p t).wellFormed = true ∧ (Instr.ofTxn p t).request = some (p, t)) ∧
  (∀ (c : Instr) (p : Sender) (t : Txn), c.wellFormed = true → c.request = some (p, t) → c = Instr.ofTxn p t) ∧
  ∀ (off : BitVec 12) (r : Reg), Reg.ofOffset off = some r ↔ r.offset = off

/-- R5, R6, R7, R14, R22: the checks that precede a block. An access that is not aligned is refused FAULT MISALIGNED in
every space; an aligned one in an unmapped range FAULT UNMAPPED; an aligned one of one or two bytes in the register
window FAULT REG_WIDTH; and a 4-byte one at an offset with no register FAULT REG_NONE, from either port. -/
def Obligations.EarlyAccessChecksFault : Prop :=
  ∀ (x : Port) (s : State), Takes x s →
    (∀ t : Txn,
      (t.size = 3 ∨ (t.size = 1 ∧ t.addr.toNat % 2 ≠ 0) ∨ (t.size = 2 ∧ t.addr.toNat % 4 ≠ 0)) →
      Faults (Instr.ofTxn (solo x) t) x t .misaligned s s) ∧
    (∀ t : Txn, aligned t.addr t.size = true →
      ((0x1000 ≤ t.addr.toNat ∧ t.addr.toNat < 0x100000) ∨ 0x200000 ≤ t.addr.toNat) →
      Faults (.unmappedAccess (solo x) t) x t .unmapped s s) ∧
    ∀ off : BitVec 12,
      (∀ size : BitVec 2, (size = 0 ∨ (size = 1 ∧ off.toNat % 2 = 0)) →
        Faults (.registerRead (solo x) off size) x { addr := windowAddr off, size := size, op := .read } .regWidth s s ∧
        ∀ w, Faults (.registerWrite (solo x) off size w) x { addr := windowAddr off, size := size, op := .write w }
          .regWidth s s) ∧
      (off.toNat % 4 = 0 → (∀ r : Reg, r.offset ≠ off) →
        Faults (.registerRead (solo x) off 2) x { addr := windowAddr off, size := 2, op := .read } .regNone s s ∧
        ∀ w, Faults (.registerWrite (solo x) off 2 w) x { addr := windowAddr off, size := 2, op := .write w }
          .regNone s s)

/-- R13, R22: a 4-byte read of a register is answered OKAY with the word of its fields, as the field tables place and
code them, from the state the step finds; but for the three registers whose read acts (CLAIM, TIME_LO, CAP_TIME_LO) it
changes nothing else. A write to a read-only register is answered OKAY and changes nothing, from either port. -/
def Obligations.PlainRegisterAccess : Prop :=
  ∀ (x : Port) (r : Reg) (s : State), Takes x s →
    (r ≠ .claim → r ≠ .timeLo → (∀ k, r ≠ .capTimeLo k) →
      Performs (.registerRead (solo x) r.offset 2) x (fieldsWord (fieldsOf s x r)) s s) ∧
    (writerOf r = .readOnly → ∀ w, Performs (.registerWrite (solo x) r.offset 2 w) x 0 s s)

/-- R15, R16, R171: IDENT reads 00566002h for both ports in operation and during initialization, whatever the part
holds, and a write to it is ignored. BRIDGE_STATUS shows READY in operation and INIT during initialization, the lock,
and the reading port. -/
def Obligations.IdentAndStatusRead : Prop :=
  ∀ (x : Port) (s : State),
    (Takes x s →
      Performs (.registerRead (solo x) 0x000 2) x 0x00566002 s s ∧
      (∀ w, Performs (.registerWrite (solo x) 0x000 2 w) x 0 s s) ∧
      Performs (.registerRead (solo x) 0x004 2) x
        ((if s.configLock then 6 else 2) ||| (if x = .B then 8 else 0)) s s) ∧
    ∀ n, s.phase = .init n → ready (solo x) s = true → s.configLock = false →
      exec (.registerRead (solo x) 0x000 2) s
        = .next (s.setLink x (.taken { resp := .okay, rdata := 0x00566002 })) ∧
      exec (.registerRead (solo x) 0x004 2) s
        = .next (s.setLink x (.taken { resp := .okay, rdata := if x = .B then 9 else 1 }))

/-- R120, R126 to R129: a port's own setting registers store their writable fields and nothing else. A route field
outside 0 to 4 is stored as 0. A TIER_CONTROL write stores GE and the tier enables and then sets and clears soft
requests, where a SOFT_SET bit wins over its SOFT_CLR bit. -/
def Obligations.OwnSettingsAreStored : Prop :=
  ∀ (x : Port) (w : Word) (s : State), Takes x s →
    let change (f : EventUnit → EventUnit) : State := s.mapBank x fun b => { b with events := f b.events }
    let tiers (e : EventUnit) : EventUnit :=
      { e with
        ge := w.getLsbD 0, tierEnable := w.extractLsb' 1 4
        soft := (e.soft &&& ~~~(w.extractLsb' 12 4)) ||| w.extractLsb' 8 4 }
    Performs (.registerWrite (solo x) 0x104 2 w) x 0 s (change fun e => { e with lineEnable := w.setWidth 16 }) ∧
    Performs (.registerWrite (solo x) 0x188 2 w) x 0 s
      (s.mapBank x fun b => { b with bells := { b.bells with mask := w.setWidth 16 } }) ∧
    (w.extractLsb' 8 8 = 0 →
      Performs (.registerWrite (solo x) 0x110 2 w) x 0 s
        (change fun e => { e with ge := w.getLsbD 0, tierEnable := w.extractLsb' 1 4 })) ∧
    (∃ r : Word,
      (∀ n < 8, r.extractLsb' (4 * n) 4 = if (w.extractLsb' (4 * n) 4).toNat ≤ 4 then w.extractLsb' (4 * n) 4 else 0) ∧
      Performs (.routeWrite (solo x) false w) x 0 s (change fun e => { e with routeLo := r }) ∧
      Performs (.routeWrite (solo x) true w) x 0 s (change fun e => { e with routeHi := r })) ∧
    ((Instr.softSet (solo x) w).wellFormed = true → Performs (.softSet (solo x) w) x 0 s (change tiers)) ∧
    ((Instr.softClr (solo x) w).wellFormed = true → Performs (.softClr (solo x) w) x 0 s (change tiers))

/-- R141, R143, R144: the steward's setting registers of the timebase and the cadences store their fields and nothing
else. The staging registers of a cadence are not locked; its other registers are written with CONFIG_LOCK 0. -/
def Obligations.StewardSettingsAreStored : Prop :=
  ∀ (k : BitVec 2) (w : Word) (s : State), Takes .A s →
    Performs (.registerWrite (solo .A) 0x608 2 w) .A 0 s
      { s with timebase := { s.timebase with setValue := s.timebase.setValue.extractLsb' 32 16 ++ w } } ∧
    Performs (.registerWrite (solo .A) 0x60C 2 w) .A 0 s
      { s with timebase := { s.timebase with setValue := w.extractLsb' 0 16 ++ s.timebase.setValue.extractLsb' 0 32 } } ∧
    Performs (.cadPeriodStageWrite (solo .A) k w) .A 0 s
      (s.mapCadence k fun c => { c with periodStage := w, periodStaged := true }) ∧
    Performs (.cadWidthStageWrite (solo .A) k w) .A 0 s
      (s.mapCadence k fun c => { c with widthStage := w.extractLsb' 0 16, widthStaged := true }) ∧
    (s.configLock = false →
      Performs (.registerWrite (solo .A) (Reg.cadConfig k).offset 2 w) .A 0 s
        (s.mapCadence k fun c => { c with outEn := w.getLsbD 0, polarity := w.getLsbD 1 }) ∧
      Performs (.registerWrite (solo .A) (Reg.cadStartLo k).offset 2 w) .A 0 s
        (s.mapCadence k fun c => { c with start := c.start.extractLsb' 32 16 ++ w }) ∧
      Performs (.registerWrite (solo .A) (Reg.cadStartHi k).offset 2 w) .A 0 s
        (s.mapCadence k fun c => { c with start := w.extractLsb' 0 16 ++ c.start.extractLsb' 0 32 }) ∧
      Performs (.registerWrite (solo .A) (Reg.cadPeriod k).offset 2 w) .A 0 s
        (s.mapCadence k fun c => { c with period := w }) ∧
      Performs (.registerWrite (solo .A) (Reg.cadWidth k).offset 2 w) .A 0 s
        (s.mapCadence k fun c => { c with width := w.extractLsb' 0 16 }))

/-- R19: a write by port B to a steward register is refused FAULT PRIVILEGE, whatever the lock and the conduits hold. -/
def Obligations.StewardRegistersRefusePortB : Prop :=
  ∀ (r : Reg) (w : Word) (s : State), Takes .B s → writerOf r = .steward →
    Faults (Instr.ofTxn (solo .B) (writeTo r w)) .B (writeTo r w) .privilege s s

/-- R20, R21, R22: while CONFIG_LOCK is 1 the steward's write to a register of the locked set, or one to CUTOFF_CONTROL
that would change PIN_EN, is refused FAULT LOCKED, before CONFIG_BUSY is consulted. -/
def Obligations.LockedRegistersRefuseTheSteward : Prop :=
  ∀ (r : Reg) (w : Word) (s : State), Takes .A s → s.configLock = true →
    (inLockedSet r = true ∨ (r = .cutoffControl ∧ w.getLsbD 0 ≠ s.cutoff.pinEn)) →
    Faults (Instr.ofTxn (solo .A) (writeTo r w)) .A (writeTo r w) .locked s s

/-- R72, R22: with CONFIG_LOCK 0, the configuration of an enabled conduit is refused FAULT CONFIG_BUSY. -/
def Obligations.EnabledConduitConfigIsBusy : Prop :=
  ∀ (f : CfgReg) (c : BitVec 4) (w : Word) (s : State), Takes .A s → s.configLock = false →
    (s.conduit c).enabled = true →
    Faults (.conduitConfigWrite (solo .A) f c w) .A (writeTo (.cfg f c) w) .configBusy s s

/-! ## Views (chapter 2), records (chapter 3) -/

/-- R2, R24, R25, R39: on a canonical store, a write of 1, 2 or 4 bytes changes exactly the bytes of its lanes, a read
carries exactly those bytes with zero on the other lanes, and the walk's write-back changes exactly the four bytes of
its word. -/
def Obligations.MemoryAccessTouchesItsBytes : Prop :=
  ∀ (m : List Host.Cell) (a : StoreAddr) (size : BitVec 2) (d : Word) (i : BitVec 16), Memory.wf m = true → size ≠ 3 →
    a.toNat % 2 ^ size.toNat = 0 →
    let touched (b : Nat) : Prop := a.toNat ≤ b ∧ b < a.toNat + 2 ^ size.toNat
    (∀ b, Memory.read (Memory.store m a size d) b =
      if touched b then d.extractLsb' (8 * (b % 4)) 8 else Memory.read m b) ∧
    (∀ n < 4, (Memory.load m a size).extractLsb' (8 * n) 8 =
      if touched (4 * (a.toNat / 4) + n) then Memory.read m (4 * (a.toNat / 4) + n) else 0) ∧
    (∀ b, Memory.read (Memory.storeWord m i d) b =
      if 4 * i.toNat ≤ b ∧ b < 4 * i.toNat + 4 then d.extractLsb' (8 * (b % 4)) 8 else Memory.read m b)

/-- R30, R31: while a port's view is disabled, an aligned view access is refused FAULT VIEW_OFF and nothing else
happens. In direct translation page p below 256 is frame p, for reading and writing, with no walk and no cache entry. -/
def Obligations.DirectTranslationReachesTheFrame : Prop :=
  ∀ (x : Port) (off : BitVec 20) (size : BitVec 2) (s : State), Takes x s → aligned (viewAddr off) size = true →
    ((s.bank x).view.enable = false → ∀ op,
      Faults (.viewAccess (solo x) off size op) x { addr := viewAddr off, size := size, op := op } .viewOff s s) ∧
    ((s.bank x).view.enable = true → (s.bank x).view.direct = true → s.configLock = false → off.toNat < 0x40000 →
      Performs (.viewAccess (solo x) off size .read) x (Memory.load s.store (BitVec.ofNat 18 off.toNat) size) s s ∧
      ∀ d, Performs (.viewAccess (solo x) off size (.write d)) x 0 s
        { s with store := Memory.store s.store (BitVec.ofNat 18 off.toNat) size d })

/-- R31, R57, R58: in direct translation a page from 256 up is refused for NO_ACCESS. With an EMPTY deny record the
answer is DENY, the record is filled and CNT_DENY counts; with a LATCHED one the access is escalated to FAULT
DOUBLE_DENY. -/
def Obligations.FirstDenyIsRecordedAndTheSecondEscalates : Prop :=
  ∀ (x : Port) (off : BitVec 20) (size : BitVec 2) (op : BusOp) (s : State), Takes x s →
    aligned (viewAddr off) size = true → (s.bank x).view.enable = true → (s.bank x).view.direct = true →
    s.configLock = false → 0x40000 ≤ off.toNat →
    ((s.bank x).records.deny = none →
      Denies (.viewAccess (solo x) off size op) x
        { write := isWrite op, size := size, reason := .noAccess, access := 0, conduit := 0, addr := viewAddr off
          time := s.timebase.time.setWidth 32 } s s) ∧
    ((s.bank x).records.deny ≠ none →
      Faults (.viewAccess (solo x) off size op) x { addr := viewAddr off, size := size, op := op } .doubleDeny s s)

/-- R26, R34 to R39: a translated access that no cache entry answers walks the page entry. A well-formed plain entry
that permits the access leads to the frame: the read returns what the store held when the step began, the write changes
the touched bytes, and the walk's own effects come about. -/
def Obligations.TableWalkReachesTheFrame : Prop :=
  ∀ (x : Port) (p o : BitVec 10) (size : BitVec 2) (d : Word) (s : State), Takes x s →
    aligned (viewAddr (p ++ o)) size = true → (s.bank x).view.enable = true →
    ((s.bank x).view.direct = false ∨ s.configLock = true) →
    let i : BitVec 16 := (s.bank x).view.base ++ p
    let w := Memory.word s.store i
    let a : StoreAddr := w.extractLsb' 0 8 ++ o
    w.extractLsb' 12 20 = 0 → w.getLsbD 8 = false →
    (CacheMisses (s.bank x).view p false → Permits (w.extractLsb' 9 2) false →
      Performs (.viewAccess (solo x) (p ++ o) size .read) x (Memory.load s.store a size) s (walked x p i w s)) ∧
    (CacheMisses (s.bank x).view p true → Permits (w.extractLsb' 9 2) true →
      Performs (.viewAccess (solo x) (p ++ o) size (.write d)) x 0 s
        { walked x p i w s with store := Memory.store (walked x p i w s).store a size d })

/-- R27, R36 to R38, R57, R58: a walked entry with ACCESS 0 is refused NO_ACCESS and a malformed one MALFORMED, with no
effect of the walk. A well-formed one refuses a write, READ_ONLY for ACCESS 1 and GUARDED for ACCESS 2, and there the
walk's own effects stand. With an EMPTY deny record the refusal is recorded; with a LATCHED one it is escalated to FAULT
DOUBLE_DENY, and what the walk did stands just the same. The data reaches no byte. -/
def Obligations.PageEntriesRefuseTheAccess : Prop :=
  ∀ (x : Port) (p o : BitVec 10) (size : BitVec 2) (op : BusOp) (s : State), Takes x s →
    aligned (viewAddr (p ++ o)) size = true → (s.bank x).view.enable = true →
    ((s.bank x).view.direct = false ∨ s.configLock = true) →
    CacheMisses (s.bank x).view p (isWrite op) →
    let i : BitVec 16 := (s.bank x).view.base ++ p
    let w := Memory.word s.store i
    let acc := w.extractLsb' 9 2
    let malformed : Prop := w.extractLsb' 12 20 ≠ 0 ∨ (w.getLsbD 8 = true ∧ w.extractLsb' 4 4 ≠ 0)
    let denied (r : DenyReason) (e : State) : Prop :=
      ((s.bank x).records.deny = none →
        Denies (.viewAccess (solo x) (p ++ o) size op) x
          { write := isWrite op, size := size, reason := r, access := acc, conduit := 0, addr := viewAddr (p ++ o)
            time := s.timebase.time.setWidth 32 } s e) ∧
      ((s.bank x).records.deny ≠ none →
        Faults (.viewAccess (solo x) (p ++ o) size op) x { addr := viewAddr (p ++ o), size := size, op := op }
          .doubleDeny s e)
    (acc = 0 → denied .noAccess s) ∧
    (acc ≠ 0 → malformed → denied .malformed s) ∧
    (acc = 1 → ¬ malformed → isWrite op = true → denied .readOnly (walked x p i w s)) ∧
    (acc = 2 → ¬ malformed → isWrite op = true → denied .guarded (walked x p i w s))

/-- R33, R38: while no sweep runs, a cached plain entry of the page that permits the access judges it, with no walk:
nothing is written back and nothing cached. -/
def Obligations.CacheHitReachesTheFrame : Prop :=
  ∀ (x : Port) (p o : BitVec 10) (size : BitVec 2) (d : Word) (e : CacheEntry) (s : State), Takes x s →
    aligned (viewAddr (p ++ o)) size = true → (s.bank x).view.enable = true →
    ((s.bank x).view.direct = false ∨ s.configLock = true) → (s.bank x).view.sweep = none →
    (s.bank x).view.cache.get (p.extractLsb' 0 6) = some e → e.tag = p.extractLsb' 6 4 → e.kind = false →
    (Permits e.access false →
      Performs (.viewAccess (solo x) (p ++ o) size .read) x (Memory.load s.store (e.target ++ o) size) s s) ∧
    (Permits e.access true →
      Performs (.viewAccess (solo x) (p ++ o) size (.write d)) x 0 s
        { s with store := Memory.store s.store (e.target ++ o) size d })

/-- R58, R79, R80, R82: an access that a conduit entry permits, cached or walked, meets the conduit checks in their order
and past them reaches the port's open slot. With an EMPTY deny record a refusal is recorded with its conduit; with a
LATCHED one it is escalated to FAULT DOUBLE_DENY. The effects of the walk, where there is one, stand in every case. -/
def Obligations.ConduitWindowReachesTheOpenSlot : Prop :=
  ∀ (x : Port) (p o : BitVec 10) (size : BitVec 2) (op : BusOp) (acc : BitVec 2) (target : Byte) (s u : State),
    Takes x s → aligned (viewAddr (p ++ o)) size = true → (s.bank x).view.enable = true →
    ((s.bank x).view.direct = false ∨ s.configLock = true) → Permits acc (isWrite op) →
    let i : BitVec 16 := (s.bank x).view.base ++ p
    let w := Memory.word s.store i
    let cached : CacheEntry := { tag := p.extractLsb' 6 4, kind := true, access := acc, target := target }
    (((s.bank x).view.sweep = none ∧ (s.bank x).view.cache.get (p.extractLsb' 0 6) = some cached ∧ u = s) ∨
      (CacheMisses (s.bank x).view p (isWrite op) ∧ w.extractLsb' 12 20 = 0 ∧ w.extractLsb' 4 4 = 0 ∧
        w.getLsbD 8 = true ∧ w.extractLsb' 9 2 = acc ∧ w.extractLsb' 0 8 = target ∧ u = walked x p i w s)) →
    let n := target.extractLsb' 0 4
    let c := s.conduit n
    let held := if x = c.producer then c.filling else c.reading
    let denied (r : DenyReason) : Prop :=
      ((s.bank x).records.deny = none →
        Denies (.viewAccess (solo x) (p ++ o) size op) x
          { write := isWrite op, size := size, reason := r, access := acc, conduit := n, addr := viewAddr (p ++ o)
            time := s.timebase.time.setWidth 32 } s u) ∧
      ((s.bank x).records.deny ≠ none →
        Faults (.viewAccess (solo x) (p ++ o) size op) x { addr := viewAddr (p ++ o), size := size, op := op }
          .doubleDeny s u)
    if c.enabled = false then denied .conduitOff
    else if s.isActive x = false then denied .absent
    else if held = none then denied .noSlot
    else if x ≠ c.producer ∧ isWrite op = true then denied .direction
    else if (c.size.toNat + 1) * 16 ≤ o.toNat then denied .beyondSlot
    else ∀ j, held = some j →
      let a : StoreAddr := BitVec.ofNat 18 (c.base.toNat * 16 + j.toNat * ((c.size.toNat + 1) * 16) + o.toNat)
      (op = .read → Performs (.viewAccess (solo x) (p ++ o) size op) x (Memory.load s.store a size) s u) ∧
      (∀ d, op = .write d →
        Performs (.viewAccess (solo x) (p ++ o) size op) x 0 s { u with store := Memory.store u.store a size d })

/-- R47 to R50: a probe changes nothing but the four probe items. HIT, KIND, ACCESS and TARGET are those of the entry
that judges the access: the frame of direct translation, the cache entry that answers, or the table word. OUTCOME is 0
where the access, made at the same instant with an EMPTY deny record, is answered OKAY, and otherwise the reason its DENY
records; a LATCHED record changes nothing in the probe and turns that DENY into FAULT. The address is the store address
the access reaches, and 0 for an OUTCOME other than 0. -/
def Obligations.ProbeForetellsTheAccess : Prop :=
  ∀ (x : Port) (p o : BitVec 10) (wr : Bool) (d : Word) (s : State), Takes x s → (s.bank x).view.enable = true →
    let op : BusOp := if wr then .write d else .read
    let word : Word := (if wr then 0x80000000 else 0) ||| (viewAddr (p ++ o)).setWidth 32
    let v := (s.bank x).view
    let w := Memory.word s.store (v.base ++ p)
    let direct : Prop := v.direct = true ∧ s.configLock = false
    let emptied := s.mapBank x fun b => { b with records := { b.records with deny := none } }
    ∃ (r : ProbeResult) (a : StoreAddr) (t u : State),
      Performs (.probe (solo x) word) x 0 s
        (s.mapBank x fun b =>
          { b with view := { b.view with probeAddr := viewAddr (p ++ o), probeWrite := wr, probeResult := some r
                                         probePhys := a } }) ∧
      (direct → r.hit = false ∧ r.kind = false ∧ r.access = (if p.toNat < 256 then 3 else 0) ∧
        r.target = if p.toNat < 256 then p.extractLsb' 0 8 else 0) ∧
      (¬ direct → ∀ e, v.sweep = none → v.cache.get (p.extractLsb' 0 6) = some e → e.tag = p.extractLsb' 6 4 →
        Permits e.access wr → r.hit = true ∧ r.kind = e.kind ∧ r.access = e.access ∧ r.target = e.target) ∧
      (¬ direct → CacheMisses v p wr → r.hit = false ∧ r.kind = w.getLsbD 8 ∧ r.access = w.extractLsb' 9 2 ∧
        r.target = w.extractLsb' 0 8) ∧
      exec (.viewAccess (solo x) (p ++ o) 0 op) emptied = .next t ∧
      exec (.viewAccess (solo x) (p ++ o) 0 op) s = .next u ∧
      (r.outcome = 0 → (∃ d, t.link x = .taken { resp := .okay, rdata := d } ∧ u.link x = t.link x) ∧
        (r.kind = false → a = r.target ++ o) ∧
        (r.kind = true →
          let c := s.conduit (r.target.extractLsb' 0 4)
          ∃ j, (if x = c.producer then c.filling else c.reading) = some j ∧
            a = BitVec.ofNat 18 (c.base.toNat * 16 + j.toNat * ((c.size.toNat + 1) * 16) + o.toNat))) ∧
      (r.outcome ≠ 0 → a = 0 ∧ t.link x = .taken { resp := .deny, rdata := 0 } ∧
        (∃ rec, (t.bank x).records.deny = some rec ∧ rec.reason.code = r.outcome) ∧
        ((s.bank x).records.deny ≠ none → u.link x = .taken { resp := .fault, rdata := 0 }))

/-- R47: a probe of an address outside the view space reports OUTCOME 14, one through a disabled view OUTCOME 15. -/
def Obligations.ProbeOutsideTheView : Prop :=
  ∀ (x : Port) (w : Word) (s : State), Takes x s →
    let a : PortAddr := w.extractLsb' 0 24
    let reports (o : BitVec 4) : Prop :=
      Performs (.probe (solo x) w) x 0 s
        (s.mapBank x fun b =>
          { b with view := { b.view with
              probeAddr := a, probeWrite := w.getLsbD 31, probePhys := 0
              probeResult := some { outcome := o, hit := false, kind := false, access := 0, target := 0 } } })
    (¬ (0x100000 ≤ a.toNat ∧ a.toNat < 0x200000) → reports 14) ∧
    (0x100000 ≤ a.toNat ∧ a.toNat < 0x200000 → (s.bank x).view.enable = false → reports 15)

/-- R29, R30, R32, R42, R43: the commands of a view. A sweep request starts a sweep only where none runs; ENABLE falling
or DIRECT changing requests one; a single invalidation drops the entry of its page, and nothing during a sweep.
INVALIDATE reads 0. -/
def Obligations.ViewCommandsSweepAndInvalidate : Prop :=
  ∀ (x : Port) (w : Word) (s : State), Takes x s →
    let swept (v : ViewUnit) : ViewUnit := { v with sweep := if v.sweep = none then some 0 else v.sweep }
    let change (f : ViewUnit → ViewUnit) : State := s.mapBank x fun b => { b with view := f b.view }
    Performs (.viewBaseWrite (solo x) w) x 0 s (change fun v => swept { v with base := w.extractLsb' 0 6 }) ∧
    Performs (.viewControlWrite (solo x) w) x 0 s (change fun v =>
      let u := { v with enable := w.getLsbD 0, direct := w.getLsbD 1 }
      if (v.enable = true ∧ w.getLsbD 0 = false) ∨ v.direct ≠ w.getLsbD 1 then swept u else u) ∧
    (w.getLsbD 31 = true → Performs (.invalidateAll (solo x) w) x 0 s (change swept)) ∧
    (w.getLsbD 31 = false → Performs (.singleInvalidation (solo x) w) x 0 s (change fun v =>
      if v.sweep = none ∧ (v.cache.get (w.extractLsb' 0 6)).map (·.tag) = some (w.extractLsb' 6 4) then
        { v with cache := v.cache.set (w.extractLsb' 0 6) none }
      else v)) ∧
    Performs (.registerRead (solo x) 0x048 2) x 0 s s

/-- R44: each core clock of a sweep invalidates one entry, the one whose number is the count of those already invalid,
and with entry 63 the sweep ends; so n clocks after its start exactly the first n entries are newly invalid, and after 64
the sweep is over. The two rows are that clock (log 6): SWEEP_PROGRESS while a sweep runs, SWEEP_END while entry 63 is
the next. Without a sweep, and SWEEP_END at another index, nothing happens. -/
def Obligations.SweepInvalidatesInOrder : Prop :=
  ∀ (x : Port) (s : State),
    let v := (s.bank x).view
    let swept : ViewUnit :=
      match v.sweep with
      | none => v
      | some i => { v with cache := v.cache.set i none, sweep := if i = 63 then none else some (i + 1) }
    advanceSweep x s = s.mapBank x (fun b => { b with view := swept }) ∧
    (s.phase = .run →
      ((coreClock s).bank x).view = swept ∧
      (v.sweep ≠ none → exec (.sweepProgress x) s = .next (coreClock s)) ∧
      (v.sweep = none → exec (.sweepProgress x) s = .next s) ∧
      (v.sweep = some 63 → exec (.sweepEnd x) s = .next (coreClock s)) ∧
      (v.sweep ≠ some 63 → exec (.sweepEnd x) s = .next s) ∧
      (v.sweep = some 0 → ∀ n ≤ 64,
        let u := ((clocks n s).bank x).view
        u.sweep = (if n < 64 then some (BitVec.ofNat 6 n) else none) ∧
        ∀ i : BitVec 6, u.cache.get i = if i.toNat < n then none else v.cache.get i))

/-- R59, R62, R66: the releases empty their record and nothing else, and a counter clear zeroes its counter. CNT_LOSS
keeps what was counted at this instant (R11). -/
def Obligations.RecordsAreReleasedAndCountersCleared : Prop :=
  ∀ (x : Port) (w : Word) (s : State), Takes x s →
    let change (f : Bank → Records) : State := s.mapBank x fun b => { b with records := f b }
    Performs (.denyRelease (solo x) w) x 0 s (change fun b => { b.records with deny := none }) ∧
    Performs (.faultRelease (solo x) w) x 0 s (change fun b => { b.records with fault := none }) ∧
    Performs (.counterClear (solo x) .deny w) x 0 s (change fun b => { b.records with cntDeny := 0 }) ∧
    Performs (.counterClear (solo x) .fault w) x 0 s (change fun b => { b.records with cntFault := 0 }) ∧
    Performs (.counterClear (solo x) .refuse w) x 0 s (change fun b => { b.records with cntRefuse := 0 }) ∧
    Performs (.counterClear (solo x) .loss w) x 0 s (change fun b => { b.records with cntLoss := b.fresh.loss })

/-! ## Conduits (chapters 4 and 5) -/

/-- R72 to R75: with CONFIG_LOCK 0 the steward configures a disabled conduit, and no field is checked. ENABLE 1 makes
the enable checks in their order; the first that fails leaves its code, and past all of them the conduit is enabled with
a fresh slot table. On an enabled conduit ENABLE 1 changes nothing. -/
def Obligations.ConduitsAreConfiguredAndEnabled : Prop :=
  ∀ (n : BitVec 4) (w : Word) (s : State), Takes .A s →
    let c := s.conduit n
    let count : Nat := if c.mode = 1 then (if c.timed then 4 else 3) else if c.mode = 2 then c.depth.toNat + 1 else 1
    let error : BitVec 2 :=
      if c.mode = 3 then 1 else if c.mode = 2 ∧ c.depth = 0 then 2
      else if 0x40000 < c.base.toNat * 16 + count * ((c.size.toNat + 1) * 16) then 3 else 0
    (s.configLock = false → c.enabled = false →
      Performs (.conduitConfigWrite (solo .A) .mode n w) .A 0 s
        (s.mapConduit n fun c =>
          { c with mode := w.extractLsb' 0 2, producer := if w.getLsbD 2 then .B else .A, depth := w.extractLsb' 4 3
                   timed := w.getLsbD 8, cadence := w.extractLsb' 9 2, holdOnLoss := w.getLsbD 12 }) ∧
      Performs (.conduitConfigWrite (solo .A) .base n w) .A 0 s
        (s.mapConduit n fun c => { c with base := w.extractLsb' 0 14 }) ∧
      Performs (.conduitConfigWrite (solo .A) .slot n w) .A 0 s
        (s.mapConduit n fun c => { c with size := w.extractLsb' 0 6 })) ∧
    ((Instr.conduitEnable (solo .A) n w).wellFormed = true →
      Performs (.conduitEnable (solo .A) n w) .A 0 s
        (if c.enabled then s
         else s.mapConduit n fun c =>
           if error ≠ 0 then { c with configError := error }
           else
             { c with
               enabled := true, configError := 0, descriptors := Table.all 3 Descriptor.zero, visible := [], ready := []
               filling := none, reading := none, seq := 0, lastOpened := none, cursor := BitVec.ofNat 3 (count - 1) }))

/-- R75, R85: ENABLE 0 disables an enabled conduit: every slot is FREE, every descriptor 0, the sequence counter kept,
and RESET_NOTICE is set in both ports exactly where some slot was not FREE. On a disabled conduit it changes nothing. -/
def Obligations.DisableDiscardsWhatIsInFlight : Prop :=
  ∀ (n : BitVec 4) (w : Word) (s : State), Takes .A s → (Instr.conduitDisable (solo .A) n w).wellFormed = true →
    let c := s.conduit n
    let t := s.mapConduit n fun c =>
      { c with
        enabled := false, descriptors := Table.all 3 Descriptor.zero, visible := [], ready := [], filling := none
        reading := none, lastOpened := none, cursor := BitVec.ofNat 3 (c.slotCount - 1) }
    let busy : Prop := ∃ i : BitVec 3, i.toNat < c.slotCount ∧ c.slotState i ≠ .free
    (c.enabled = false → Performs (.conduitDisable (solo .A) n w) .A 0 s s) ∧
    (c.enabled = true → ¬ busy → Performs (.conduitDisable (solo .A) n w) .A 0 s t) ∧
    (c.enabled = true → busy → Performs (.conduitDisable (solo .A) n w) .A 0 s ((t.noteReset .A n).noteReset .B n))

/-- R90, R91, R94, R96, R99: an OPEN_WRITE that passes the checks takes the lowest FREE slot, on a QUEUE conduit the
first FREE slot in cyclic order after the cursor, and describes its capacity. With no FREE slot the result is FULL and
nothing else changes. The model's choices: the cursor takes the opened slot in every mode (log 11), and a LATEST conduit
without a FREE slot, which no run reaches, answers FULL too (log 15). -/
def Obligations.OpenWriteTakesTheFirstFreeSlot : Prop :=
  ∀ (x : Port) (w : Word) (s : State), Takes x s → (Instr.openWrite (solo x) w).wellFormed = true →
    let n : BitVec 4 := w.extractLsb' 4 4
    let c := s.conduit n
    let free (i : BitVec 3) : Prop := i.toNat < c.slotCount ∧ c.slotState i = .free
    let rank (i : BitVec 3) : Nat :=
      if c.mode = 2 then (i.toNat + 8 * c.slotCount - (c.cursor.toNat + 1)) % c.slotCount else i.toNat
    let result (code : ConduitCode) (i : BitVec 3) (s : State) : State :=
      s.mapBank x fun b =>
        { b with conduits := { b.conduits with result := { code := code, conduit := n, op := 1, slot := i } } }
    c.enabled = true → s.isActive x = true → x = c.producer → c.filling = none →
    ((∀ i, ¬ free i) → Performs (.openWrite (solo x) w) x 0 s (result .full 0 s)) ∧
    (∀ i, free i → (∀ j, free j → rank i ≤ rank j) →
      Performs (.openWrite (solo x) w) x 0 s
        (result .done i ((s.mapConduit n fun c => { c with filling := some i, cursor := i }).mapBank x fun b =>
          { b with conduits := { b.conduits with
              info := { seq := 0, length := BitVec.ofNat 11 ((c.size.toNat + 1) * 16), time := 0 } } })))

/-- R91, R92, R93, R99, R102, R157: a COMMIT that passes the checks numbers, stamps and measures the slot and hands it
over: READY on a gated conduit, otherwise VISIBLE with the consumer's notice; LATEST replaces, the other modes append.
The capture channels that select the conduit take its COMMIT_TIME. -/
def Obligations.CommitStampsAndHandsOver : Prop :=
  ∀ (x : Port) (w : Word) (i : BitVec 3) (s : State), Takes x s → (Instr.commit (solo x) w).wellFormed = true →
    let n : BitVec 4 := w.extractLsb' 4 4
    let len : BitVec 11 := w.extractLsb' 8 11
    let c := s.conduit n
    let d : Descriptor := { seq := c.seq + 1, length := len, time := s.timebase.time }
    let gate := c.timed && ((s.cadence c.cadence).state == .armed || (s.cadence c.cadence).state == .running)
    c.enabled = true → s.isActive x = true → x = c.producer → c.filling = some i → len ≠ 0 →
    len.toNat ≤ (c.size.toNat + 1) * 16 →
    let u := (s.mapConduit n fun c =>
        { c with
          seq := d.seq, descriptors := c.descriptors.set i d, filling := none
          visible := if gate then c.visible else if c.mode = 1 then [i] else c.visible ++ [i]
          ready := if !gate then c.ready else if c.mode = 1 then [i] else c.ready ++ [i] }).mapBank x fun b =>
      { b with conduits := { b.conduits with info := d, result := { code := .done, conduit := n, op := 2, slot := i } } }
    ∃ caps : Table 2 Capture,
      (∀ k, let ch := s.capture k
        caps.get k = if ch.source = 2 ∧ ch.csel = n then ch.after s.timebase.time .internal else ch) ∧
      Performs (.commit (solo x) w) x 0 s { (if gate then u else u.noteCommit x.other n) with captures := caps }

/-- R90, R91, R95, R97, R100: an OPEN_READ that passes the checks takes the head of the visible list and describes it.
On a LATEST conduit the result is STALE where the slot's SEQ is the one last opened, and that record then takes the SEQ.
With nothing visible the result is EMPTY and nothing else changes. -/
def Obligations.OpenReadTakesTheHead : Prop :=
  ∀ (x : Port) (w : Word) (s : State), Takes x s → (Instr.openRead (solo x) w).wellFormed = true →
    let n : BitVec 4 := w.extractLsb' 4 4
    let c := s.conduit n
    let result (code : ConduitCode) (i : BitVec 3) (s : State) : State :=
      s.mapBank x fun b =>
        { b with conduits := { b.conduits with result := { code := code, conduit := n, op := 4, slot := i } } }
    c.enabled = true → s.isActive x = true → x ≠ c.producer → c.reading = none →
    (c.visible = [] → Performs (.openRead (solo x) w) x 0 s (result .empty 0 s)) ∧
    (∀ i rest, c.visible = i :: rest →
      let d := c.descriptors.get i
      Performs (.openRead (solo x) w) x 0 s
        (result (if c.mode = 1 ∧ c.lastOpened = some d.seq then .stale else .done) i
          ((s.mapConduit n fun c =>
            { c with visible := rest, reading := some i
                     lastOpened := if c.mode = 1 then some d.seq else c.lastOpened }).mapBank x fun b =>
            { b with conduits := { b.conduits with info := d } })))

/-- R94, R95, R97, R101, R103: ABANDON frees the FILLING slot. RELEASE frees the READING slot with the producer's DRAIN
notice and RETURN puts it back at the head of the visible list; but on a LATEST conduit both keep it as the only visible
slot, without notice, where no newer slot waits, and free it otherwise. Every other record of the conduit is kept. -/
def Obligations.SlotsAreGivenBack : Prop :=
  ∀ (x : Port) (w : Word) (i : BitVec 3) (s : State), Takes x s →
    let n : BitVec 4 := w.extractLsb' 4 4
    let c := s.conduit n
    let done (op : BitVec 4) (s : State) : State :=
      s.mapBank x fun b =>
        { b with conduits := { b.conduits with result := { code := .done, conduit := n, op := op, slot := i } } }
    let freed := s.mapConduit n fun c => { c with reading := none }
    let kept := s.mapConduit n fun c => { c with reading := none, visible := i :: c.visible }
    let newest : Prop := c.visible = [] ∧ c.ready = []
    c.enabled = true → s.isActive x = true →
    ((Instr.abandon (solo x) w).wellFormed = true → x = c.producer → c.filling = some i →
      Performs (.abandon (solo x) w) x 0 s (done 3 (s.mapConduit n fun c => { c with filling := none }))) ∧
    (x ≠ c.producer → c.reading = some i →
      ((Instr.conduitRelease (solo x) w).wellFormed = true →
        (¬ (c.mode = 1 ∧ newest) → Performs (.conduitRelease (solo x) w) x 0 s ((done 5 freed).noteDrain x.other n)) ∧
        (c.mode = 1 ∧ newest → Performs (.conduitRelease (solo x) w) x 0 s (done 5 kept))) ∧
      ((Instr.returnSlot (solo x) w).wellFormed = true →
        (c.mode = 1 ∧ ¬ newest → Performs (.returnSlot (solo x) w) x 0 s (done 6 freed)) ∧
        (¬ (c.mode = 1 ∧ ¬ newest) → Performs (.returnSlot (solo x) w) x 0 s (done 6 kept))))

/-- R64, R65, R89, R90: the refusal checks of a conduit command in their order. A refused command is answered OKAY,
leaves its code with the fields as written, is counted in CNT_REFUSE, and changes nothing else. -/
def Obligations.RefusedConduitCommandsAreCounted : Prop :=
  ∀ (x : Port) (w : Word) (s : State), Takes x s →
    let op : BitVec 4 := w.extractLsb' 0 4
    let n : BitVec 4 := w.extractLsb' 4 4
    let len : BitVec 11 := w.extractLsb' 8 11
    let c := s.conduit n
    let held := if x = c.producer then c.filling else c.reading
    let role := if op.toNat ≤ 3 then c.producer else c.producer.other
    let refusal : Option ConduitCode :=
      if op = 0 ∨ 7 ≤ op.toNat then some .badOp
      else if c.enabled = false then some .disabled
      else if s.isActive x = false then some .absent
      else if x ≠ role then some .notOwner
      else if (op = 1 ∨ op = 4) ∧ held ≠ none then some .alreadyOpen
      else if ¬ (op = 1 ∨ op = 4) ∧ held = none then some .notOpen
      else if op = 2 ∧ (len = 0 ∨ (c.size.toNat + 1) * 16 < len.toNat) then some .badLength
      else none
    let refused (code : ConduitCode) : State :=
      s.mapBank x fun b => refusedBank
        { b with conduits := { b.conduits with result := { code := code, conduit := n, op := op, slot := 0 } } }
    (∀ code, refusal = some code →
      Performs (Instr.ofTxn (solo x) (writeTo .conduitCommand w)) x 0 s (refused code)) ∧
    ((Instr.badOp (solo x) w).wellFormed = true → Performs (.badOp (solo x) w) x 0 s (refused .badOp))

/-! ## Notices, doorbells, tokens (chapters 5 and 6) -/

/-- R11, R104, R116, R118, R119, R125: a ring sets the written bells of the partner and nothing else. A clearing write
clears the written bits of its own register, save those set at this instant (log 10), and nothing else. -/
def Obligations.RingsSetAndClearsReachOlderFlags : Prop :=
  ∀ (x : Port) (w : Word) (s : State), Takes x s →
    let m : BitVec 16 := w.setWidth 16
    let left (flags fresh : BitVec 16) : BitVec 16 := (flags &&& ~~~m) ||| (flags &&& fresh)
    let change (f : Bank → Bank) : State := s.mapBank x f
    Performs (.ring (solo x) w) x 0 s
      (s.mapBank x.other fun b =>
        { b with bells := { b.bells with incoming := b.bells.incoming ||| m }
                 fresh := { b.fresh with bell := b.fresh.bell ||| m } }) ∧
    Performs (.doorbellClear (solo x) w) x 0 s (change fun b =>
      { b with bells := { b.bells with incoming := left b.bells.incoming b.fresh.bell } }) ∧
    Performs (.commitNoticeClear (solo x) w) x 0 s (change fun b =>
      { b with conduits := { b.conduits with commitNotice := left b.conduits.commitNotice b.fresh.commit } }) ∧
    Performs (.drainNoticeClear (solo x) w) x 0 s (change fun b =>
      { b with conduits := { b.conduits with drainNotice := left b.conduits.drainNotice b.fresh.drain } }) ∧
    Performs (.resetNoticeClear (solo x) w) x 0 s (change fun b =>
      { b with conduits := { b.conduits with resetNotice := left b.conduits.resetNotice b.fresh.reset } }) ∧
    Performs (.tokenNoticeClear (solo x) w) x 0 s (change fun b =>
      { b with tokens := { b.tokens with notice := left b.tokens.notice b.fresh.token } }) ∧
    Performs (.linePendingClear (solo x) w) x 0 s (change fun b =>
      { b with events := { b.events with latches := left b.events.latches b.fresh.latch } })

/-- R112 to R116: the four token commands of an ACTIVE port that succeed. ACQUIRE takes a free token, changes nothing on
one's own and waits for the partner's; RELEASE and the steward's FORCE_RELEASE hand the token to a waiting partner with
its notice, or free it; CANCEL ends the port's own wait. Each leaves its result. -/
def Obligations.TokenCommandsMoveTheToken : Prop :=
  ∀ (x : Port) (w : Word) (s : State), Takes x s → s.isActive x = true →
    let t : BitVec 4 := w.extractLsb' 4 4
    let k := s.token t
    let result (code : TokenCode) (op : BitVec 2) (s : State) : State :=
      s.mapBank x fun b => { b with tokens := { b.tokens with result := { code := code, token := t, op := op } } }
    let passed (y : Port) : State :=
      if k.wait.get y.other then (s.setToken t (k.passed y)).noteToken y.other t else s.setToken t (k.passed y)
    ((Instr.acquire (solo x) w).wellFormed = true →
      Performs (.acquire (solo x) w) x 0 s
        (if k.holder = none then result .granted 1 (s.setToken t { k with holder := some x })
         else if k.holder = some x then result .heldAlready 1 s
         else result .waiting 1 (s.setToken t { k with wait := k.wait.set x true }))) ∧
    ((Instr.tokenRelease (solo x) w).wellFormed = true → k.holder = some x →
      Performs (.tokenRelease (solo x) w) x 0 s (result .released 2 (passed x))) ∧
    ((Instr.cancel (solo x) w).wellFormed = true → k.wait.get x = true →
      Performs (.cancel (solo x) w) x 0 s (result .cancelled 0 (s.setToken t { k with wait := k.wait.set x false }))) ∧
    ((Instr.forceRelease (solo x) w).wellFormed = true → x = .A →
      (k.holder = none → Performs (.forceRelease (solo x) w) x 0 s (result .freeAlready 3 s)) ∧
      ∀ y, k.holder = some y → Performs (.forceRelease (solo x) w) x 0 s (result .released 3 (passed y)))

/-- R64, R65, R111, R113, R114: a token command is refused, in this order, where its port is ABSENT, for a FORCE_RELEASE
by port B, for a RELEASE by a port that does not hold the token, and for a CANCEL by one that does not wait. A refusal
leaves its code, is counted in CNT_REFUSE, and changes nothing else. -/
def Obligations.RefusedTokenCommandsAreCounted : Prop :=
  ∀ (x : Port) (w : Word) (s : State), Takes x s →
    let op : BitVec 2 := w.extractLsb' 0 2
    let t : BitVec 4 := w.extractLsb' 4 4
    let refusal : Option TokenCode :=
      if s.isActive x = false then some .absent
      else if op = 3 ∧ x = .B then some .notPermitted
      else if op = 2 ∧ (s.token t).holder ≠ some x then some .notHolder
      else if op = 0 ∧ (s.token t).wait.get x = false then some .notWaiting
      else none
    ∀ code, refusal = some code →
      Performs (Instr.ofTxn (solo x) (writeTo .tokenCommand w)) x 0 s
        (s.mapBank x fun b => refusedBank
          { b with tokens := { b.tokens with result := { code := code, token := t, op := op } } })

/-! ## Event units (chapter 7) -/

/-- R130, R132, R133: a claim returns the eligible tier with the smallest number and its lowest requesting line, or 16
where only its soft request stands, and puts the tier in service; with nothing eligible it returns 0 and changes
nothing. A dismiss ends the service of the smallest tier in service. A narrow CLAIM read claims nothing, a CLAIM write
is ignored, and a DISMISS read returns 0. -/
def Obligations.ClaimsAndDismissesNest : Prop :=
  ∀ (x : Port) (s : State), Takes x s →
    let e := (s.bank x).events
    let asks (n l : Nat) : Prop :=
      l < 16 ∧ (pendingLines s x).getLsbD l = true ∧ e.lineEnable.getLsbD l = true ∧ (e.route l).toNat = n
    let service (f : BitVec 4 → BitVec 4) : State :=
      s.mapBank x fun b => { b with events := { b.events with inService := f b.events.inService } }
    ((∀ n, 1 ≤ n → n ≤ 4 → ¬ TierEligible s x n) → Performs (.claim (solo x)) x 0 s s) ∧
    (∀ n, 1 ≤ n → n ≤ 4 → TierEligible s x n → (∀ m, 1 ≤ m → m < n → ¬ TierEligible s x m) →
      (∀ l, asks n l → (∀ j, asks n j → l ≤ j) →
        Performs (.claim (solo x)) x (BitVec.ofNat 32 (n + 256 * l)) s (service (· ||| 1#4 <<< (n - 1)))) ∧
      ((∀ l, ¬ asks n l) →
        Performs (.claim (solo x)) x (BitVec.ofNat 32 (n + 256 * 16)) s (service (· ||| 1#4 <<< (n - 1))))) ∧
    Faults (.registerRead (solo x) 0x118 1) x { addr := 0x000118, size := 1, op := .read } .regWidth s s ∧
    (∀ w, Performs (.registerWrite (solo x) 0x118 2 w) x 0 s s) ∧
    Performs (.registerRead (solo x) 0x11C 2) x 0 s s ∧
    (∀ w, e.inService = 0 → Performs (.dismiss (solo x) w) x 0 s s) ∧
    (∀ w, ∀ n, 1 ≤ n → n ≤ 4 → e.inService.getLsbD (n - 1) = true →
      (∀ m, 1 ≤ m → m < n → e.inService.getLsbD (m - 1) = false) →
      Performs (.dismiss (solo x) w) x 0 s (service (· &&& ~~~(1#4 <<< (n - 1)))))

/-- R122, R131, R150, R160, Table 7.1: the level lines are the conditions of their sources and the latched lines their
latches. At the next core clock (log 8) an IRQ pin is high exactly where a tier of its unit was eligible, and CAD_OUT[k]
shows its active level exactly where the output was active, OUT_EN 1 and cutoff NORMAL. -/
def Obligations.LinesAndPinsFollowTheState : Prop :=
  ∀ (x : Port) (s : State),
    let b := s.bank x
    let line (l : Nat) : Bool := (pendingLines s x).getLsbD l
    (line 0 = true ↔ b.records.deny ≠ none) ∧ (line 1 = true ↔ b.records.fault ≠ none) ∧
    (line 2 = true ↔ b.conduits.commitNotice ≠ 0) ∧ (line 3 = true ↔ b.conduits.drainNotice ≠ 0) ∧
    (line 4 = true ↔ b.conduits.resetNotice ≠ 0) ∧ (line 5 = true ↔ b.tokens.notice ≠ 0) ∧
    (line 6 = true ↔ b.bells.incoming &&& b.bells.mask ≠ 0) ∧
    (line 11 = true ↔ ∃ k, (s.capture k).unread = true ∧ (s.capture k).owner = x) ∧
    (line 15 = true ↔ s.cutoff.active = true) ∧
    (∀ l ∈ [7, 8, 9, 10, 12, 13, 14], line l = b.events.latches.getLsbD l) ∧
    (s.phase = .run →
      ((coreClock s).irq.get x = true ↔ ∃ n, 1 ≤ n ∧ n ≤ 4 ∧ TierEligible s x n) ∧
      ∀ k, let c := s.cadence k
        (coreClock s).cadOut.getLsbD k.toNat =
          ((c.pulse != .off && c.outEn && !s.cutoff.active) != c.polarity))

/-! ## Timebase, cadences, cutoff (chapter 8) -/

/-- R139, R140, R141: the commands of the timebase. A TIME_LO read loads the reader's shadow from the same TIME.
PRESCALE is stored and the interval in progress left alone. LOAD is refused while a cadence is live and otherwise makes
the set value pending; CLR_REFUSED clears its flag. -/
def Obligations.TimebaseCommands : Prop :=
  ∀ (x : Port) (w : Word) (s : State),
    (Takes x s →
      Performs (.timeLoRead (solo x)) x (s.timebase.time.extractLsb' 0 32) s
        (s.mapBank x fun b => { b with timeShadow := s.timebase.time.extractLsb' 32 16 })) ∧
    (Takes .A s →
      let b := s.timebase
      (s.configLock = false →
        Performs (.prescaleWrite (solo .A) w) .A 0 s { s with timebase := { b with prescale := w.extractLsb' 0 8 } }) ∧
      ((Instr.load (solo .A) w).wellFormed = true →
        ((∃ k, (s.cadence k).state = .armed ∨ (s.cadence k).state = .running) →
          Performs (.load (solo .A) w) .A 0 s { s with timebase := { b with loadRefused := true } }) ∧
        ((∀ k, (s.cadence k).state ≠ .armed ∧ (s.cadence k).state ≠ .running) →
          Performs (.load (solo .A) w) .A 0 s
            { s with timebase := { b with pendingLoad := some b.setValue, loadRefused := false } })) ∧
      ((Instr.clrRefused (solo .A) w).wellFormed = true →
        Performs (.clrRefused (solo .A) w) .A 0 s { s with timebase := { b with loadRefused := false } }))

/-- R10, R11, R138, R139, R142, R163, R165: what one core clock of operation does, in the order of R10: the instant
begins with nothing set at it (log 10), cutoff is detected, at a tick the timebase and cadences 0 to 3 take their turns,
capture pins are sampled, at a tick liveness is counted for A and B, and the sweeps progress. A tick sets TIME to the
pending value if there is one and to TIME + 1 otherwise, and fixes the next interval by the PRESCALE in force; between
ticks only the divider moves. A counting monitor advances its phase, and at 256 its COUNT, with warning and expiry. The
rows are the clocks up to and with the tick (log 6); what each named part does is said in statements of its own. -/
def Obligations.TicksAdvanceTheTimebase : Prop :=
  ∀ s : State, s.phase = .run →
    let b := s.timebase
    let after : Timebase :=
      { b with time := nextTime b, pendingLoad := none, left := b.prescale.toNat + 1 }
    let counted : Timebase := { b with left := b.left - 1 }
    let due : Prop := b.left ≤ 1
    let t := coreClock s
    let begun := newInstant s
    let entered := cutoffInstant begun
    let ticked :=
      if due then cadenceTurn 3 (cadenceTurn 2 (cadenceTurn 1 (cadenceTurn 0 { entered with timebase := after })))
      else { entered with timebase := counted }
    let sampled := sampleCaptures ticked
    let live := if due then countLiveness .B (countLiveness .A sampled) else sampled
    t = advanceSweep .B (advanceSweep .A live) ∧
    t.timebase = (if due then after else counted) ∧
    t.store = s.store ∧ t.phase = s.phase ∧ t.configLock = s.configLock ∧ t.turn = s.turn ∧ t.pins = s.pins ∧
    (∀ x, begun.bank x = { s.bank x with fresh := Fresh.zero }) ∧
    (∀ k, begun.cadence k = { s.cadence k with freshOverlap := false, freshAckOverrun := false }) ∧
    { begun with banks := s.banks, cadences := s.cadences, links := s.links, irq := s.irq, cadOut := s.cadOut } = s ∧
    (∀ x, let m := (s.bank x).monitor
      let m' := (t.bank x).monitor
      (¬ due ∨ ¬ m.Counting → m' = m) ∧
      (due → m.Counting → ¬ m.ExpiresNext → m' = m.counted) ∧
      (due → m.ExpiresNext → m' = { m.counted with presence := .absent, lastCause := .expired })) ∧
    (∀ n < b.left, (clocks n s).timebase = { b with left := b.left - n }) ∧
    exec .tick s = .next (clocks (max 1 b.left) s) ∧ (clocks (max 1 b.left) s).timebase = after ∧
    exec .timeLoadApply s = .next (if b.pendingLoad = none then s else clocks (max 1 b.left) s)

/-- R11, R149, R151: the CLR bits clear the sticky flags, but an OVERLAP or ACK_OVERRUN set at this instant survives
(log 10). A CAD_ACK write by either port ends an acknowledged pulse and changes nothing else. -/
def Obligations.CadenceFlagsAndAcknowledgement : Prop :=
  ∀ (x : Port) (k : BitVec 2) (w : Word) (s : State),
    (Takes x s →
      Performs (.cadAck (solo x) k w) x 0 s
        (s.mapCadence k fun c => { c with pulse := if c.pulse = .acknowledged then .off else c.pulse })) ∧
    (Takes .A s → ∀ i : Instr,
      i ∈ [.clrCmdErr (solo .A) k w, .clrLate (solo .A) k w, .clrOverlap (solo .A) k w, .clrAckOverrun (solo .A) k w] →
      i.wellFormed = true →
      Performs i .A 0 s
        (s.mapCadence k fun c =>
          { c with
            cmdErr := c.cmdErr && !w.getLsbD 8, late := c.late && !w.getLsbD 9
            overlap := c.overlap && !(w.getLsbD 10 && !c.freshOverlap)
            ackOverrun := c.ackOverrun && !(w.getLsbD 11 && !c.freshAckOverrun) }))

/-- R145: ARM, without STOP in the same write, of a cadence that is not live, with cutoff NORMAL and no load pending,
clears the four flags, ends the pulse, zeroes TICKS and schedules START, or the next tick with LATE where START is now
or past. Any other ARM is refused: CMD_ERR becomes 1 and, but for the clear bits of the same write, nothing else
changes. -/
def Obligations.ArmStartsOrRefuses : Prop :=
  ∀ (k : BitVec 2) (w : Word) (s : State), Takes .A s → (Instr.arm (solo .A) k w).wellFormed = true →
    w.getLsbD 1 = false →
    let c := s.cadence k
    let live : Prop := c.state = .armed ∨ c.state = .running
    let d := c.start - s.timebase.time
    (¬ live ∧ s.cutoff.active = false ∧ s.timebase.pendingLoad = none →
      Performs (.arm (solo .A) k w) .A 0 s
        (s.mapCadence k fun c =>
          { c with
            state := .armed, cmdErr := false, late := decide (d = 0 ∨ 2 ^ 47 ≤ d.toNat), overlap := false
            ackOverrun := false, freshOverlap := false, freshAckOverrun := false, pulse := .off, ticks := 0
            next := if d = 0 ∨ 2 ^ 47 ≤ d.toNat then s.timebase.time + 1 else c.start })) ∧
    (live ∨ s.cutoff.active = true ∨ s.timebase.pendingLoad ≠ none →
      Performs (.arm (solo .A) k w) .A 0 s
        (s.mapCadence k fun c =>
          { c with
            cmdErr := true, late := c.late && !w.getLsbD 9
            overlap := c.overlap && !(w.getLsbD 10 && !c.freshOverlap)
            ackOverrun := c.ackOverrun && !(w.getLsbD 11 && !c.freshAckOverrun) }))

/-- R106, R145, R146: STOP of a live cadence makes it STOPPED, ends its pulse and flushes its bound conduits; of any
other it changes nothing. The clear bits of the same write act first, sparing what was set at this instant (log 10), and an
ARM of the same write acts last, on what STOP left: it is accepted where cutoff is NORMAL and no load is pending, and then
clears the flags, those set at this instant too (log 9); otherwise it is refused, and CMD_ERR becomes 1. -/
def Obligations.StopFlushesTheBoundConduits : Prop :=
  ∀ (k : BitVec 2) (w : Word) (s : State), Takes .A s → w.getLsbD 1 = true →
    let cleared := s.mapCadence k fun c =>
      { c with
        cmdErr := c.cmdErr && !w.getLsbD 8, late := c.late && !w.getLsbD 9
        overlap := c.overlap && !(w.getLsbD 10 && !c.freshOverlap)
        ackOverrun := c.ackOverrun && !(w.getLsbD 11 && !c.freshAckOverrun) }
    let stopped := cleared.mapCadence k fun c => { c with state := .stopped, pulse := .off }
    let c := s.cadence k
    ∃ t, (c.state = .armed ∨ c.state = .running → Flushed (· = k) stopped t) ∧
      (c.state = .idle ∨ c.state = .stopped → t = cleared) ∧
      ((Instr.stop (solo .A) k w).wellFormed = true → Performs (.stop (solo .A) k w) .A 0 s t) ∧
      ((Instr.arm (solo .A) k w).wellFormed = true →
        (s.cutoff.active = false → s.timebase.pendingLoad = none →
          Performs (.arm (solo .A) k w) .A 0 s (t.mapCadence k (·.armed s.timebase.time))) ∧
        (s.cutoff.active = true ∨ s.timebase.pendingLoad ≠ none →
          Performs (.arm (solo .A) k w) .A 0 s (t.mapCadence k fun c => { c with cmdErr := true })))

/-- R105, R122, R124, R144, R147 to R149, R157: a live cadence whose NEXT is TIME ticks in its turn of a tick. It counts
in TICKS, latches CADENCEk in both units, releases the bound conduits, captures, transfers staged values, starts a pulse
that names what it overtook, and schedules the next tick, or stops where PERIOD is 0. The flags it sets are marked as set
at this instant (log 10). The row is the clocks up to and with the next tick where the cadence ticks there, and nothing
elsewhere (log 6). -/
def Obligations.CadenceTickEffects : Prop :=
  ∀ (k : BitVec 2) (s : State),
    let overtakes (c : Cadence) := match c.pulse with | .counted _ => true | _ => false
    let unserved (c : Cadence) := match c.pulse with | .acknowledged => true | _ => false
    let ticked (c : Cadence) : Cadence :=
      let period := if c.periodStaged then c.periodStage else c.period
      let width := if c.widthStaged then c.widthStage else c.width
      { c with
        state := if period = 0 then .stopped else .running, ticks := c.ticks + 1
        next := if period = 0 then c.next else c.next + period.setWidth 48
        period := period, width := width, periodStaged := false, widthStaged := false
        pulse := if width = 0 then .acknowledged else .counted width
        overlap := c.overlap || overtakes c, freshOverlap := c.freshOverlap || overtakes c
        ackOverrun := c.ackOverrun || unserved c, freshAckOverrun := c.freshAckOverrun || unserved c }
    ((s.cadence k).Live → (s.cadence k).next = s.timebase.time → ∃ caps : Table 2 Capture,
      (∀ j, let ch := s.capture j
        caps.get j =
          if ch.source = 3 ∧ ch.csel = k.setWidth 4 then ch.after s.timebase.time .internal else ch) ∧
      Flushed (· = k)
        { ((s.latch .A (7 + k.setWidth 4)).latch .B (7 + k.setWidth 4)).mapCadence k ticked with captures := caps }
        (cadenceTurn k s)) ∧
    (s.phase = .run →
      let u := clocks (s.timebase.left - 1) s
      (TicksNext u k → exec (.cadenceTick k) s = .next (coreClock u) ∧
        (coreClock u).cadence k =
          ticked { u.cadence k with freshOverlap := false, freshAckOverrun := false }) ∧
      (¬ TicksNext u k → exec (.cadenceTick k) s = .next s))

/-- R148: at a timebase tick at which its cadence does not tick, a counted pulse loses one count and ends with the last;
nothing else changes in the cadence's turn. The row is the clocks up to and with the next tick where the pulse ends there,
and nothing elsewhere (log 6). -/
def Obligations.CountedPulsesEnd : Prop :=
  ∀ (k : BitVec 2) (s : State),
    (¬ ((s.cadence k).Live ∧ (s.cadence k).next = s.timebase.time) →
      cadenceTurn k s = s.mapCadence k fun c =>
        { c with
          pulse := match c.pulse with
            | .counted n => if n.toNat ≤ 1 then .off else .counted (n - 1)
            | p => p }) ∧
    (s.phase = .run →
      let u := clocks (s.timebase.left - 1) s
      let ends : Prop :=
        ((u.cadence k).pulse = .counted 0 ∨ (u.cadence k).pulse = .counted 1) ∧ ¬ PinDemands u ∧ ¬ TicksNext u k
      (ends → exec (.pulseEnd k) s = .next (coreClock u) ∧ ((coreClock u).cadence k).pulse = .off) ∧
      (¬ ends → exec (.pulseEnd k) s = .next s))

/-- R106, R152: entry into cutoff, by SOFT 1 while NORMAL, or by detection, as the first internal event of an instant,
where PIN_EN is 1 and the two latest samples are low. The cause is recorded, live cadences stop, every pulse ends, and the
conduits bound to a cadence that was live are flushed, with the notices marked as set at this instant (log 10). SOFT 1 while
ACTIVE changes nothing; an instant that does not
enter only samples the pin. The row is the next core clock where it enters, and nothing elsewhere (log 6). -/
def Obligations.CutoffEntryStopsTheCadences : Prop :=
  ∀ (x : Port) (w : Word) (s : State),
    let enters (cause : CutoffCause) (s t : State) : Prop := ∃ cads : Table 2 Cadence,
      (∀ k, let c := s.cadence k
        cads.get k = { c with
          state := if c.state = .armed ∨ c.state = .running then .stopped else c.state, pulse := .off }) ∧
      Flushed (fun k => (s.cadence k).state = .armed ∨ (s.cadence k).state = .running)
        { s with cutoff := { s.cutoff with active := true, cause := cause }, cadences := cads } t
    let sampled := { s with cutoff := { s.cutoff with previous := s.cutoff.sample, sample := s.pins.cutoffN } }
    (Takes x s → (Instr.soft (solo x) w).wellFormed = true →
      (s.cutoff.active = true → Performs (.soft (solo x) w) x 0 s s) ∧
      (s.cutoff.active = false → ∃ t, enters .soft s t ∧ Performs (.soft (solo x) w) x 0 s t)) ∧
    (¬ PinDemands s → cutoffInstant s = sampled) ∧
    (PinDemands s → enters .pin sampled (cutoffInstant s)) ∧
    (s.phase = .run →
      let c := (coreClock s).cutoff
      (PinDemands s → exec .cutoffDetection s = .next (coreClock s) ∧
        c = { sampled.cutoff with active := true, cause := .pin }) ∧
      (¬ PinDemands s → exec .cutoffDetection s = .next s ∧ c = sampled.cutoff))

/-- R21, R152, R153: a CUTOFF_CONTROL write stores PIN_EN; under the lock one that would change it is refused FAULT
LOCKED, its CLEAR with it. CLEAR then leaves ACTIVE where PIN_EN is 0 or the latest sample is high, keeping CAUSE, and
is refused otherwise; while NORMAL it changes nothing. A level change of CUTOFF_N is the core clock that samples it, with
the levels the other pins show there (log 7); while RESET_N is low only the pins move (R170). -/
def Obligations.CutoffControlAndPin : Prop :=
  ∀ (w : Word) (level : Bool) (pins : Pins) (s : State),
    let c := { s.cutoff with pinEn := w.getLsbD 0 }
    (Takes .A s → (s.configLock = false ∨ w.getLsbD 0 = s.cutoff.pinEn) →
      ((Instr.cutoffControlWrite (solo .A) w).wellFormed = true →
        Performs (.cutoffControlWrite (solo .A) w) .A 0 s { s with cutoff := c }) ∧
      ((Instr.clear (solo .A) w).wellFormed = true →
        Performs (.clear (solo .A) w) .A 0 s
          { s with
            cutoff :=
              if s.cutoff.active = false then c
              else if w.getLsbD 0 = false ∨ s.cutoff.sample = true then { c with active := false, clearRefused := false }
              else { c with clearRefused := true } })) ∧
    (Takes .A s → s.configLock = true → w.getLsbD 0 ≠ s.cutoff.pinEn →
      Faults (Instr.ofTxn (solo .A) (writeTo .cutoffControl w)) .A (writeTo .cutoffControl w) .locked s s) ∧
    (let moved := { s with pins := { pins with cutoffN := level } }
     exec (.cutoffPinLevelChange ⟨level, pins⟩) s = .next (coreClock moved) ∧
      (s.phase = .held → coreClock moved = moved) ∧
      (s.phase ≠ .held →
        (coreClock moved).cutoff.sample = level ∧ (coreClock moved).cutoff.previous = s.cutoff.sample))

/-! ## Captures (chapter 9), liveness (chapter 10) -/

/-- R155, R159: a CAP_CONFIG write with CONFIG_LOCK 0 stores the five fields, unchecked, and empties the record. A
CAP_TIME_LO read returns the low word and loads the reader's shadow; the owner's read also consumes the record. -/
def Obligations.CaptureRegistersStoreAndConsume : Prop :=
  ∀ (x : Port) (k : BitVec 2) (w : Word) (s : State),
    (Takes .A s → s.configLock = false →
      Performs (.capConfigWrite (solo .A) k w) .A 0 s
        (s.mapCapture k fun c =>
          { c with
            source := w.extractLsb' 0 2, edge := w.extractLsb' 2 2, mode := w.getLsbD 4
            owner := if w.getLsbD 5 then .B else .A, csel := w.extractLsb' 8 4
            unread := false, time := 0, cause := .nothing, overrun := false })) ∧
    (Takes x s →
      let c := s.capture k
      Performs (.capTimeLoRead (solo x) k) x (c.time.extractLsb' 0 32) s
        ((s.mapBank x fun b => { b with capShadow := b.capShadow.set k (c.time.extractLsb' 32 16) }).mapCapture k
          fun c => if c.owner = x then { c with unread := false, overrun := false } else c))

/-- R10, R156, R158: at every core clock of operation each pin CAP_IN[k] is sampled once, after any tick. An edge between
the new sample and the one before that a SOURCE 1 channel selects captures TIME with its cause, SINGLE keeping an unread
record and CONTINUOUS replacing it, either with OVERRUN. An edge the channel does not select, and a sample that shows no
edge or has no predecessor, only leave the new sample. Either row is the clock that samples its level, with the levels the
other pins show there (log 7). -/
def Obligations.EdgesAreCapturedOrDiscarded : Prop :=
  ∀ (k : BitVec 2) (e : Edge) (pins : Pins) (s : State),
    (∃ caps : Table 2 Capture, sampleCaptures s = { s with captures := caps } ∧
      ∀ j, caps.get j = (s.capture j).sampled (s.pins.capIn.getLsbD j.toNat) s.timebase.time) ∧
    (∃ levels : Pins, levels.cutoffN = pins.cutoffN ∧
      (∀ j : BitVec 2, levels.capIn.getLsbD j.toNat =
        if j = k then decide (e = .rising) else pins.capIn.getLsbD j.toNat) ∧
      let t := coreClock { s with pins := levels }
      exec (.captureEdge k ⟨e, pins⟩) s = .next t ∧ exec (.unmatchedEdge k ⟨e, pins⟩) s = .next t ∧
      (s.phase = .held → t = { s with pins := levels }) ∧
      (s.phase = .run → ∀ j, (t.capture j).sample = some (levels.capIn.getLsbD j.toNat) ∧
        ((s.capture j).source ≠ 3 →
          t.capture j = (s.capture j).sampled (levels.capIn.getLsbD j.toNat) t.timebase.time)))

/-- R162, R163, R165, R168: a LIVE_LIMIT write with CONFIG_LOCK 0 stores the limit and restarts the count. REJOIN returns
an ABSENT port to ACTIVE and latches its partner's PARTNER line, also at the instant of the expiry itself (the model's
reading, log 17), and changes nothing for an ACTIVE one. At a tick a counting monitor that does not expire advances, and
where COUNT comes to L − (L div 2) with WARNED 0 it sets WARNED and latches LIVE_WARN; nothing else changes, and a monitor
that does not count is left alone. The row is the clocks up to and with the next tick where the warning is given there, and
nothing elsewhere (log 6). -/
def Obligations.LivenessCommandsAndWarning : Prop :=
  ∀ (x y : Port) (w : Word) (s : State),
    (Takes .A s → s.configLock = false →
      Performs (.liveLimitWrite (solo .A) y w) .A 0 s
        (s.mapBank y fun b =>
          { b with monitor := { b.monitor with limit := w.extractLsb' 0 16, count := 0, phase := 0, warned := false } })) ∧
    (Takes x s → (Instr.rejoin (solo x) w).wellFormed = true →
      (s.isActive x = true → Performs (.rejoin (solo x) w) x 0 s s) ∧
      (s.isActive x = false →
        Performs (.rejoin (solo x) w) x 0 s
          ((s.mapBank x fun b =>
            { b with monitor := { b.monitor with presence := .active, count := 0, phase := 0, warned := false } }).latch
            x.other 12))) ∧
    (let m := (s.bank x).monitor
     let t := s.mapBank x fun b => { b with monitor := m.counted }
     (¬ m.Counting → countLiveness x s = s) ∧
     (m.Counting → ¬ m.ExpiresNext → countLiveness x s = if m.WarnsNext then t.latch x 13 else t)) ∧
    (s.phase = .run →
      let u := clocks (s.timebase.left - 1) s
      let b := (coreClock u).bank x
      ((u.bank x).monitor.WarnsNext → exec (.liveWarn x) s = .next (coreClock u) ∧
        b.monitor.warned = true ∧ b.events.latches.getLsbD 13 = true) ∧
      (¬ (u.bank x).monitor.WarnsNext → exec (.liveWarn x) s = .next s))

/-- R11, R107, R108, R117, R166: where a tick brings COUNT to the limit, the port expires after its warning test; with limit
1 the warning falls at the same increment and is given first (R165). The port becomes ABSENT, counts in CNT_LOSS, latches
the partner's PARTNER line, is revoked on every enabled conduit with HOLD_ON_LOSS 0, and its tokens and waits are released.
What is set is marked as set at this instant (log 10), so that it survives a clear there. TIME, the store, the cadences,
the captures and the cutoff unit are kept. The row is the clocks up to and with the next tick where the port expires there,
and nothing elsewhere (log 6). -/
def Obligations.ExpiryRevokesAndReleases : Prop :=
  ∀ (x : Port) (s : State),
    let m := (s.bank x).monitor
    (m.ExpiresNext →
      let t := countLiveness x s
      let warned := if m.WarnsNext then s.latch x 13 else s
      let n := (s.bank x).records.cntLoss
      let freed (n : BitVec 4) : Prop :=
        let c := s.conduit n
        c.enabled = true ∧ c.holdOnLoss = false ∧ x ≠ c.producer ∧ c.reading ≠ none ∧
          (c.mode = 1 → c.visible = [] ∧ c.ready = [])
      let handed (k : BitVec 4) : Prop := (s.token k).holder = some x ∧ (s.token k).wait.get x.other = true
      (let b := warned.bank x
       t.bank x =
         { b with monitor := { m.counted with presence := .absent, lastCause := .expired }
                  records := { b.records with cntLoss := if n = 255 then 255 else n + 1 }
                  events := { b.events with latches := if n = 254 then b.events.latches ||| 0x4000 else b.events.latches }
                  conduits := { b.conduits with commitNotice := (t.bank x).conduits.commitNotice }
                  fresh := { b.fresh with
                    loss := if n = 255 then b.fresh.loss else b.fresh.loss + 1
                    latch := if n = 254 then b.fresh.latch ||| 0x4000 else b.fresh.latch
                    commit := (t.bank x).fresh.commit } }) ∧
      (let y := s.bank x.other
       t.bank x.other =
         { y with tokens := { y.tokens with notice := (t.bank x.other).tokens.notice }
                  events := { y.events with latches := y.events.latches ||| 0x1000 }
                  fresh := { y.fresh with
                    latch := y.fresh.latch ||| 0x1000
                    token := (t.bank x.other).fresh.token } }) ∧
      (∀ n : BitVec 4,
        ((t.bank x).conduits.commitNotice.getLsbD n.toNat = true ↔
          (s.bank x).conduits.commitNotice.getLsbD n.toNat = true ∨ freed n) ∧
        ((t.bank x).fresh.commit.getLsbD n.toNat = true ↔ (s.bank x).fresh.commit.getLsbD n.toNat = true ∨ freed n) ∧
        ((t.bank x.other).tokens.notice.getLsbD n.toNat = true ↔
          (s.bank x.other).tokens.notice.getLsbD n.toNat = true ∨ handed n) ∧
        ((t.bank x.other).fresh.token.getLsbD n.toNat = true ↔
          (s.bank x.other).fresh.token.getLsbD n.toNat = true ∨ handed n)) ∧
      (∀ c, t.conduit c =
        if (s.conduit c).enabled = true ∧ (s.conduit c).holdOnLoss = false then (s.conduit c).revoked x else s.conduit c) ∧
      (∀ k, t.token k = (s.token k).withdrawn x) ∧
      { t with banks := s.banks, conduits := s.conduits, tokens := s.tokens } = s) ∧
    (s.phase = .run →
      let u := clocks (s.timebase.left - 1) s
      let m' := ((coreClock u).bank x).monitor
      ((u.bank x).monitor.ExpiresNext → exec (.expiry x) s = .next (coreClock u) ∧
        m'.presence = .absent ∧ m'.lastCause = .expired ∧ m'.count = m'.limit) ∧
      (¬ (u.bank x).monitor.ExpiresNext → exec (.expiry x) s = .next s))

/-! ## Resets (chapter 11) -/

/-- R17, R20, R87, R173: LOCK sets CONFIG_LOCK and nothing else. A bridge reset leaves every operating item at its first
value, stops live cadences, enters cutoff again where the pin demands it, notes in RESET_NOTICE the conduits it found in
flight, and keeps configuration, TIME, the store, the lock but for a LOCK bit, and TURN. Every conduit has a fresh slot
table, whose cursor is n - 1 (R87); that a disabled one gets it too, with the n of its configuration as it stands, and
that the cursor of a MODE 3 conduit, which has no slots, is 0, are the model's reading (log 11). A flag of this instant is
cleared too (log 9), and of what is set, only the RESET_NOTICE bits count as set at this instant (log 10). -/
def Obligations.LockAndBridgeReset : Prop :=
  ∀ (w : Word) (s : State), Takes .A s →
    ((Instr.lock (solo .A) w).wellFormed = true → Performs (.lock (solo .A) w) .A 0 s { s with configLock := true }) ∧
    ((Instr.bridgeReset (solo .A) w).wellFormed = true →
      let demand : Bool := s.cutoff.pinEn && !s.cutoff.sample && !s.cutoff.previous
      ∃ t, Performs (.bridgeReset (solo .A) w) .A 0 s t ∧
        t.configLock = (s.configLock || w.getLsbD 1) ∧
        (∀ n, let c := s.conduit n
          t.conduit n = { c with
            enabled := false, configError := 0, seq := 0, descriptors := Table.all 3 Descriptor.zero, visible := []
            ready := [], filling := none, reading := none, lastOpened := none
            cursor := BitVec.ofNat 3 (c.slotCount - 1) }) ∧
        (∀ k, t.token k = { holder := none, wait := { a := false, b := false } }) ∧
        (∀ k, let c := s.cadence k
          t.cadence k = { c with
            state := if c.state = .armed ∨ c.state = .running then .stopped else c.state, pulse := .off
            cmdErr := false, late := false, overlap := false, ackOverrun := false, freshOverlap := false
            freshAckOverrun := false }) ∧
        (∀ k, t.capture k = { s.capture k with unread := false, time := 0, cause := .nothing, overrun := false }) ∧
        t.cutoff =
          { s.cutoff with active := demand, cause := if demand then .pin else .nothing, clearRefused := false } ∧
        t.timebase = { s.timebase with loadRefused := false } ∧
        (∀ y, let b := s.bank y
          let b' := t.bank y
          b'.view = { b.view with sweep := if b.view.sweep = none then some 0 else b.view.sweep } ∧
          b'.records = Records.reset ∧ b'.tokens = TokenPort.reset ∧
          b'.conduits = { ConduitPort.reset with resetNotice := b'.conduits.resetNotice } ∧
          (∀ n : BitVec 4, b'.conduits.resetNotice.getLsbD n.toNat = true ↔
            (s.conduit n).enabled = true ∧
              ∃ i : BitVec 3, i.toNat < (s.conduit n).slotCount ∧ (s.conduit n).slotState i ≠ .free) ∧
          b'.bells = { b.bells with incoming := 0 } ∧
          b'.events = { b.events with latches := 0, soft := 0, inService := 0 } ∧
          b'.fresh = { Fresh.zero with reset := b'.conduits.resetNotice } ∧
          b'.timeShadow = 0 ∧ b'.capShadow = Table.all 2 0 ∧
          b'.monitor = { b.monitor with
            presence := .active, count := 0, phase := 0, warned := false, lastCause := .nothing }) ∧
        { t with configLock := s.configLock, banks := s.banks, conduits := s.conduits, tokens := s.tokens
                 timebase := s.timebase, cadences := s.cadences, cutoff := s.cutoff, captures := s.captures } = s)

/-- R174, R117, R107: a port reset returns the resetting port's bank to its first values but for its settings, makes the
port ACTIVE with LAST_CAUSE RESET, revokes it on every enabled conduit, releases its tokens and waits, and latches the
partner's PARTNER line. Configuration, TIME, cadences, captures, cutoff and lock are kept. -/
def Obligations.PortResetReturnsOnePort : Prop :=
  ∀ (x : Port) (w : Word) (s : State), Takes x s → (Instr.portReset (solo x) w).wellFormed = true →
    let b := s.bank x
    ∃ t, Performs (.portReset (solo x) w) x 0 s t ∧
      (
        let b' := t.bank x
        b'.view = { b.view with sweep := if b.view.sweep = none then some 0 else b.view.sweep } ∧
        b'.records = Records.reset ∧ b'.tokens = TokenPort.reset ∧
        b'.conduits = { ConduitPort.reset with commitNotice := b'.conduits.commitNotice } ∧
        (∀ n : BitVec 4, let c := s.conduit n
          b'.conduits.commitNotice.getLsbD n.toNat = true ↔
            c.enabled = true ∧ x ≠ c.producer ∧ c.reading ≠ none ∧ (c.mode = 1 → c.visible = [] ∧ c.ready = [])) ∧
        b'.bells = { b.bells with incoming := 0 } ∧
        b'.events = { b.events with latches := 0, soft := 0, inService := 0 } ∧
        b'.timeShadow = 0 ∧ b'.capShadow = Table.all 2 0 ∧
        b'.monitor = { b.monitor with
          presence := .active, count := 0, phase := 0, warned := false, lastCause := .reset }) ∧
      (∀ c, t.conduit c = if (s.conduit c).enabled then (s.conduit c).revoked x else s.conduit c) ∧
      (∀ k, t.token k = (s.token k).withdrawn x) ∧
      (∀ k : BitVec 4, (t.bank x.other).tokens.notice.getLsbD k.toNat = true ↔
        (s.bank x.other).tokens.notice.getLsbD k.toNat = true ∨
          ((s.token k).holder = some x ∧ (s.token k).wait.get x.other = true)) ∧
      (let y := s.bank x.other
       t.bank x.other =
         { y with tokens := { y.tokens with notice := (t.bank x.other).tokens.notice }
                  events := { y.events with latches := y.events.latches ||| 0x1000 }
                  fresh := (t.bank x.other).fresh }) ∧
      { t with banks := s.banks, conduits := s.conduits, tokens := s.tokens } = s

/-- R51, R68, R87, R109, R121, R137, R154, R161, R170, Table 11.1: pin reset, in any state, leaves every state item at its
pin-reset value: TURN names A, views and caches are clear, every record is EMPTY, every conduit is a disabled HANDOFF
conduit with its one slot FREE, every token free, every cadence IDLE, cutoff NORMAL, TIME 0, every capture record empty with
no sample, every monitor ACTIVE, and no link holds a response. The two samples of CUTOFF_N restart at the level on the pin:
the table says restarted, the level is the model's choice (log 4). The store's contents are undefined (log 3): nothing is
said of them. -/
def Obligations.PinResetLeavesTheTableValues : Prop :=
  ∀ s : State, ∃ t, exec .pinReset s = .next t ∧
    t.phase = .held ∧ t.configLock = false ∧ t.turn = .A ∧ t.cadOut = 0 ∧ t.pins = s.pins ∧ t.pending = s.pending ∧
    t.timebase.time = 0 ∧ t.timebase.prescale = 0 ∧ t.timebase.setValue = 0 ∧ t.timebase.pendingLoad = none ∧
    t.timebase.loadRefused = false ∧
    t.cutoff = { active := false, cause := .nothing, clearRefused := false, pinEn := false
                 sample := s.pins.cutoffN, previous := s.pins.cutoffN } ∧
    (∀ x, t.link x = .free ∧ t.irq.get x = false ∧
      let b := t.bank x
      (∀ i, b.view.cache.get i = none) ∧
      b.view = { base := 0, enable := false, direct := false, cache := b.view.cache, sweep := none, probeAddr := 0
                 probeWrite := false, probeResult := none, probePhys := 0 } ∧
      b.records = { deny := none, fault := none, cntDeny := 0, cntFault := 0, cntRefuse := 0, cntLoss := 0 } ∧
      b.conduits = { result := { code := .none, conduit := 0, op := 0, slot := 0 }
                     info := { seq := 0, length := 0, time := 0 }, commitNotice := 0, drainNotice := 0, resetNotice := 0 } ∧
      b.tokens = { result := { code := .none, token := 0, op := 0 }, notice := 0 } ∧
      b.bells = { incoming := 0, mask := 0 } ∧
      b.events = { latches := 0, lineEnable := 0, routeLo := 0, routeHi := 0, ge := false, tierEnable := 0, soft := 0
                   inService := 0 } ∧
      b.timeShadow = 0 ∧ (∀ k, b.capShadow.get k = 0) ∧
      b.monitor = { limit := 0, count := 0, phase := 0, presence := .active, warned := false, lastCause := .nothing }) ∧
    (∀ n, let c := t.conduit n
      (∀ i, c.descriptors.get i = { seq := 0, length := 0, time := 0 }) ∧
      c = { mode := 0, producer := .A, depth := 0, timed := false, cadence := 0, holdOnLoss := false, base := 0, size := 0
            enabled := false, configError := 0, descriptors := c.descriptors, visible := [], ready := []
            filling := none, reading := none, seq := 0, lastOpened := none, cursor := 0 } ∧
      fieldsWord (fieldsOf t .A (.cfgOccupancy n)) = 0xFFFFF8) ∧
    (∀ k, t.token k = { holder := none, wait := { a := false, b := false } }) ∧
    (∀ k, t.cadence k =
      { outEn := false, polarity := false, start := 0, period := 0, periodStage := 0, periodStaged := false, width := 0
        widthStage := 0, widthStaged := false, state := .idle, next := 0, ticks := 0, pulse := .off, cmdErr := false
        late := false, overlap := false, ackOverrun := false, freshOverlap := false, freshAckOverrun := false }) ∧
    (∀ k, t.capture k =
      { source := 0, edge := 0, mode := false, owner := .A, csel := 0, unread := false, time := 0, cause := .nothing
        overrun := false, sample := none })

/-- R171, R172: RESET_N rising restarts the samples of CUTOFF_N at the level on the pin (the level is the model's choice,
log 4) and clears the first word of the store, and each clock of initialization clears the next. A
transaction taken meanwhile is answered FAULT INITIALIZING, save the reads of IDENT and BRIDGE_STATUS, and changes
nothing but its link. After the 65,536th clock operation begins, with the first tick PRESCALE + 1 clocks away and CAP_IN
sampled. -/
def Obligations.InitializationClearsTheStore : Prop :=
  ∀ s : State, s.StoreCanonical →
    (s.phase = .held → ∃ t, exec .initialization s = .next t ∧ t.phase = .init 1 ∧
      (∀ a, Memory.read t.store a = if a < 4 then 0 else Memory.read s.store a) ∧
      t.cutoff = { s.cutoff with sample := s.pins.cutoffN, previous := s.pins.cutoffN } ∧
      { t with phase := s.phase, store := s.store, cutoff := s.cutoff } = s) ∧
    (s.phase ≠ .held → exec .initialization s = .next s) ∧
    (∀ n, s.phase = .init n → n < 65536 →
      (coreClock s).phase = .init (n + 1) ∧
      (∀ a, Memory.read (coreClock s).store a =
        if 4 * n ≤ a ∧ a < 4 * n + 4 then 0 else Memory.read s.store a) ∧
      exec .initializationEnd s = .next s) ∧
    (∀ n c x t, s.phase = .init n → Instr.request c = some (solo x, t) → ready (solo x) s = true →
      ¬ (t.size = 2 ∧ t.op = .read ∧ (t.addr = 0x000000 ∨ t.addr = 0x000004)) →
      exec c s = .next (s.setLink x (.taken { resp := .fault, rdata := 0 }))) ∧
    (s.phase = .init 65536 → ∃ t, exec .initializationEnd s = .next t ∧ t.phase = .run ∧
      t.timebase = { s.timebase with left := s.timebase.prescale.toNat + 1 } ∧ t.store = s.store ∧
      (∀ k, (t.capture k).sample = some (s.pins.capIn.getLsbD k.toNat)) ∧
      t.banks = s.banks ∧ t.conduits = s.conduits ∧ t.tokens = s.tokens ∧ t.cadences = s.cadences ∧ t.turn = s.turn)

/-! ## Invariants that every step keeps -/

/-- R24: the store keeps its canonical form: 262,144 byte addresses, and equal contents are equal lists. -/
def Obligations.StoreStaysCanonical : Prop :=
  ∀ s t : State, s.StoreCanonical → step s = .next t → t.StoreCanonical

/-- R110, R117: no step lets a port wait but for a token that its partner holds, or lets an ABSENT port hold or wait. -/
def Obligations.TokensStaySound : Prop :=
  ∀ s t : State, s.TokensSound → step s = .next t → t.TokensSound

/-- R142, R145, R148, R152, R153: no step makes a cadence live or starts a pulse under cutoff, or lets a cadence be live
while a load is pending. -/
def Obligations.TimingStaysSound : Prop :=
  ∀ s t : State, s.TimingSound → step s = .next t → t.TimingSound

/-- R74, R77, R81, R85, R93, R99: no step uses a slot twice or a slot that does not exist, leaves a slot in use on a
disabled conduit or a READY slot on an ungated one, or gives a LATEST conduit two VISIBLE or two READY slots. -/
def Obligations.ConduitsStaySound : Prop :=
  ∀ s t : State, s.ConduitsSound → step s = .next t → t.ConduitsSound

/-- The state after reset satisfies the four invariants. -/
def Obligations.ResetIsSound : Prop :=
  State.reset.StoreCanonical ∧ State.reset.TokensSound ∧ State.reset.TimingSound ∧ State.reset.ConduitsSound
end

