-- ==== Sys2Proof/Laws/State.lean ====
section
/-! SUPPORT. The small laws of State: what each named update leaves alone (true by `rfl`), and reading back through the
tables and the two banks. -/

namespace Sys2Proof.Machine

/-! ## Tables and the two banks -/

@[simp] theorem Port.other_other (x : Port) : x.other.other = x := by cases x <;> rfl

@[simp] theorem Port.other_ne (x : Port) : x.other ≠ x := by cases x <;> decide

@[simp] theorem Port.ne_other (x : Port) : x ≠ x.other := by cases x <;> decide

@[simp] theorem PerPort.get_set_same {α : Type} (p : PerPort α) (x : Port) (v : α) : (p.set x v).get x = v := by
  cases x <;> rfl

@[simp] theorem PerPort.get_set_other {α : Type} (p : PerPort α) (x : Port) (v : α) :
    (p.set x v).get x.other = p.get x.other := by cases x <;> rfl

theorem PerPort.get_set_ne {α : Type} (p : PerPort α) {x y : Port} (v : α) (h : y ≠ x) :
    (p.set x v).get y = p.get y := by cases x <;> cases y <;> first | rfl | exact absurd rfl h

@[simp] theorem PerPort.get_map_same {α : Type} (p : PerPort α) (x : Port) (f : α → α) :
    (p.map x f).get x = f (p.get x) := by cases x <;> rfl

@[simp] theorem PerPort.get_map_other {α : Type} (p : PerPort α) (x : Port) (f : α → α) :
    (p.map x f).get x.other = p.get x.other := by cases x <;> rfl

theorem PerPort.get_map_ne {α : Type} (p : PerPort α) {x y : Port} (f : α → α) (h : y ≠ x) :
    (p.map x f).get y = p.get y := by cases x <;> cases y <;> first | rfl | exact absurd rfl h

theorem PerPort.set_set {α : Type} (p : PerPort α) (x : Port) (v w : α) : (p.set x v).set x w = p.set x w := by
  cases x <;> rfl

theorem PerPort.map_map {α : Type} (p : PerPort α) (x : Port) (f g : α → α) :
    (p.map x f).map x g = p.map x (fun v => g (f v)) := by cases x <;> rfl

theorem PerPort.map_comm {α : Type} (p : PerPort α) {x y : Port} (f g : α → α) (h : x ≠ y) :
    (p.map x f).map y g = (p.map y g).map x f := by cases x <;> cases y <;> first | rfl | exact absurd rfl h

@[simp] theorem PerPort.map_id {α : Type} (p : PerPort α) (x : Port) : p.map x (fun v => v) = p := by cases x <;> rfl

@[simp] theorem Table.get_set_same {n : Nat} {α : Type} (t : Table n α) (i : BitVec n) (v : α) :
    (t.set i v).get i = v := by simp [Table.get, Table.set]

theorem Table.get_set_ne {n : Nat} {α : Type} (t : Table n α) {i j : BitVec n} (v : α) (h : j ≠ i) :
    (t.set i v).get j = t.get j := by
  simp only [Table.get, Table.set]
  exact Vector.getElem_set_ne _ _ fun e => h (BitVec.eq_of_toNat_eq e.symm)

theorem Table.get_set {n : Nat} {α : Type} (t : Table n α) (i j : BitVec n) (v : α) :
    (t.set i v).get j = if j = i then v else t.get j := by
  by_cases h : j = i
  · subst h; simp
  · simp [h, Table.get_set_ne]

theorem Table.get_map {n : Nat} {α : Type} (t : Table n α) (i j : BitVec n) (f : α → α) :
    (t.map i f).get j = if j = i then f (t.get i) else t.get j := Table.get_set t i j _

@[simp] theorem Table.get_map_same {n : Nat} {α : Type} (t : Table n α) (i : BitVec n) (f : α → α) :
    (t.map i f).get i = f (t.get i) := by simp [Table.get_map]

theorem Table.get_map_ne {n : Nat} {α : Type} (t : Table n α) {i j : BitVec n} (f : α → α) (h : j ≠ i) :
    (t.map i f).get j = t.get j := by simp [Table.get_map, h]

@[simp] theorem Table.get_all {α : Type} (n : Nat) (v : α) (i : BitVec n) : (Table.all n v).get i = v := by
  simp [Table.get, Table.all]

/-- Two tables with the same entries are the same table. -/
theorem Table.ext {n : Nat} {α : Type} {t u : Table n α} (h : ∀ i, t.get i = u.get i) : t = u := by
  apply Vector.ext
  intro k hk
  have := h (BitVec.ofNat n k)
  simpa [Table.get, BitVec.toNat_ofNat, Nat.mod_eq_of_lt hk] using this

/-! ## Reading through the named updates -/

@[simp] theorem State.bank_mapBank_same (s : State) (x : Port) (f : Bank → Bank) :
    (s.mapBank x f).bank x = f (s.bank x) := PerPort.get_map_same _ _ _

@[simp] theorem State.bank_mapBank_other (s : State) (x : Port) (f : Bank → Bank) :
    (s.mapBank x f).bank x.other = s.bank x.other := PerPort.get_map_other _ _ _

@[simp] theorem State.bank_mapBank_of_other (s : State) (x : Port) (f : Bank → Bank) :
    (s.mapBank x.other f).bank x = s.bank x := by cases x <;> rfl

theorem State.bank_mapBank (s : State) (x y : Port) (f : Bank → Bank) :
    (s.mapBank x f).bank y = if y = x then f (s.bank x) else s.bank y := by cases x <;> cases y <;> rfl

theorem State.mapBank_mapBank (s : State) (x : Port) (f g : Bank → Bank) :
    (s.mapBank x f).mapBank x g = s.mapBank x (fun b => g (f b)) := by cases x <;> rfl

theorem State.mapBank_comm (s : State) (x : Port) (f g : Bank → Bank) :
    (s.mapBank x f).mapBank x.other g = (s.mapBank x.other g).mapBank x f := by cases x <;> rfl

@[simp] theorem State.mapBank_id (s : State) (x : Port) : (s.mapBank x fun b => b) = s := by cases x <;> rfl

theorem State.conduit_mapConduit (s : State) (c d : BitVec 4) (f : Conduit → Conduit) :
    (s.mapConduit c f).conduit d = if d = c then f (s.conduit c) else s.conduit d := Table.get_map _ _ _ _

@[simp] theorem State.conduit_mapConduit_same (s : State) (c : BitVec 4) (f : Conduit → Conduit) :
    (s.mapConduit c f).conduit c = f (s.conduit c) := Table.get_map_same _ _ _

theorem State.token_setToken (s : State) (t u : BitVec 4) (v : Token) :
    (s.setToken t v).token u = if u = t then v else s.token u := Table.get_set _ _ _ _

@[simp] theorem State.token_setToken_same (s : State) (t : BitVec 4) (v : Token) : (s.setToken t v).token t = v :=
  Table.get_set_same _ _ _

theorem State.cadence_mapCadence (s : State) (k j : BitVec 2) (f : Cadence → Cadence) :
    (s.mapCadence k f).cadence j = if j = k then f (s.cadence k) else s.cadence j := Table.get_map _ _ _ _

@[simp] theorem State.cadence_mapCadence_same (s : State) (k : BitVec 2) (f : Cadence → Cadence) :
    (s.mapCadence k f).cadence k = f (s.cadence k) := Table.get_map_same _ _ _

theorem State.capture_mapCapture (s : State) (k j : BitVec 2) (f : Capture → Capture) :
    (s.mapCapture k f).capture j = if j = k then f (s.capture k) else s.capture j := Table.get_map _ _ _ _

@[simp] theorem State.capture_mapCapture_same (s : State) (k : BitVec 2) (f : Capture → Capture) :
    (s.mapCapture k f).capture k = f (s.capture k) := Table.get_map_same _ _ _

@[simp] theorem State.link_setLink_same (s : State) (x : Port) (l : Link) : (s.setLink x l).link x = l :=
  PerPort.get_set_same _ _ _

@[simp] theorem State.link_setLink_other (s : State) (x : Port) (l : Link) :
    (s.setLink x l).link x.other = s.link x.other := PerPort.get_set_other _ _ _

/-! ## What the named updates leave alone -/

section mapBank

variable (s : State) (x : Port) (f : Bank → Bank)

@[simp] theorem State.mapBank_pending : (s.mapBank x f).pending = s.pending := rfl
@[simp] theorem State.mapBank_phase : (s.mapBank x f).phase = s.phase := rfl
@[simp] theorem State.mapBank_configLock : (s.mapBank x f).configLock = s.configLock := rfl
@[simp] theorem State.mapBank_turn : (s.mapBank x f).turn = s.turn := rfl
@[simp] theorem State.mapBank_links : (s.mapBank x f).links = s.links := rfl
@[simp] theorem State.mapBank_pins : (s.mapBank x f).pins = s.pins := rfl
@[simp] theorem State.mapBank_irq : (s.mapBank x f).irq = s.irq := rfl
@[simp] theorem State.mapBank_cadOut : (s.mapBank x f).cadOut = s.cadOut := rfl
@[simp] theorem State.mapBank_store : (s.mapBank x f).store = s.store := rfl
@[simp] theorem State.mapBank_conduits : (s.mapBank x f).conduits = s.conduits := rfl
@[simp] theorem State.mapBank_tokens : (s.mapBank x f).tokens = s.tokens := rfl
@[simp] theorem State.mapBank_timebase : (s.mapBank x f).timebase = s.timebase := rfl
@[simp] theorem State.mapBank_cadences : (s.mapBank x f).cadences = s.cadences := rfl
@[simp] theorem State.mapBank_cutoff : (s.mapBank x f).cutoff = s.cutoff := rfl
@[simp] theorem State.mapBank_captures : (s.mapBank x f).captures = s.captures := rfl
@[simp] theorem State.mapBank_freeCount : (s.mapBank x f).freeCount = s.freeCount := rfl
@[simp] theorem State.mapBank_time : (s.mapBank x f).time = s.time := rfl
@[simp] theorem State.mapBank_link (y : Port) : (s.mapBank x f).link y = s.link y := rfl
@[simp] theorem State.mapBank_conduit (j : BitVec 4) : (s.mapBank x f).conduit j = s.conduit j := rfl
@[simp] theorem State.mapBank_token (j : BitVec 4) : (s.mapBank x f).token j = s.token j := rfl
@[simp] theorem State.mapBank_cadence (j : BitVec 2) : (s.mapBank x f).cadence j = s.cadence j := rfl
@[simp] theorem State.mapBank_capture (j : BitVec 2) : (s.mapBank x f).capture j = s.capture j := rfl

end mapBank

section mapConduit

variable (s : State) (c : BitVec 4) (f : Conduit → Conduit)

@[simp] theorem State.mapConduit_pending : (s.mapConduit c f).pending = s.pending := rfl
@[simp] theorem State.mapConduit_phase : (s.mapConduit c f).phase = s.phase := rfl
@[simp] theorem State.mapConduit_configLock : (s.mapConduit c f).configLock = s.configLock := rfl
@[simp] theorem State.mapConduit_turn : (s.mapConduit c f).turn = s.turn := rfl
@[simp] theorem State.mapConduit_links : (s.mapConduit c f).links = s.links := rfl
@[simp] theorem State.mapConduit_pins : (s.mapConduit c f).pins = s.pins := rfl
@[simp] theorem State.mapConduit_irq : (s.mapConduit c f).irq = s.irq := rfl
@[simp] theorem State.mapConduit_cadOut : (s.mapConduit c f).cadOut = s.cadOut := rfl
@[simp] theorem State.mapConduit_store : (s.mapConduit c f).store = s.store := rfl
@[simp] theorem State.mapConduit_banks : (s.mapConduit c f).banks = s.banks := rfl
@[simp] theorem State.mapConduit_tokens : (s.mapConduit c f).tokens = s.tokens := rfl
@[simp] theorem State.mapConduit_timebase : (s.mapConduit c f).timebase = s.timebase := rfl
@[simp] theorem State.mapConduit_cadences : (s.mapConduit c f).cadences = s.cadences := rfl
@[simp] theorem State.mapConduit_cutoff : (s.mapConduit c f).cutoff = s.cutoff := rfl
@[simp] theorem State.mapConduit_captures : (s.mapConduit c f).captures = s.captures := rfl
@[simp] theorem State.mapConduit_freeCount : (s.mapConduit c f).freeCount = s.freeCount := rfl
@[simp] theorem State.mapConduit_time : (s.mapConduit c f).time = s.time := rfl
@[simp] theorem State.mapConduit_link (y : Port) : (s.mapConduit c f).link y = s.link y := rfl
@[simp] theorem State.mapConduit_bank (y : Port) : (s.mapConduit c f).bank y = s.bank y := rfl
@[simp] theorem State.mapConduit_isActive (y : Port) : (s.mapConduit c f).isActive y = s.isActive y := rfl
@[simp] theorem State.mapConduit_token (j : BitVec 4) : (s.mapConduit c f).token j = s.token j := rfl
@[simp] theorem State.mapConduit_cadence (j : BitVec 2) : (s.mapConduit c f).cadence j = s.cadence j := rfl
@[simp] theorem State.mapConduit_capture (j : BitVec 2) : (s.mapConduit c f).capture j = s.capture j := rfl

end mapConduit

section setToken

variable (s : State) (t : BitVec 4) (v : Token)

@[simp] theorem State.setToken_pending : (s.setToken t v).pending = s.pending := rfl
@[simp] theorem State.setToken_phase : (s.setToken t v).phase = s.phase := rfl
@[simp] theorem State.setToken_configLock : (s.setToken t v).configLock = s.configLock := rfl
@[simp] theorem State.setToken_turn : (s.setToken t v).turn = s.turn := rfl
@[simp] theorem State.setToken_links : (s.setToken t v).links = s.links := rfl
@[simp] theorem State.setToken_pins : (s.setToken t v).pins = s.pins := rfl
@[simp] theorem State.setToken_irq : (s.setToken t v).irq = s.irq := rfl
@[simp] theorem State.setToken_cadOut : (s.setToken t v).cadOut = s.cadOut := rfl
@[simp] theorem State.setToken_store : (s.setToken t v).store = s.store := rfl
@[simp] theorem State.setToken_banks : (s.setToken t v).banks = s.banks := rfl
@[simp] theorem State.setToken_conduits : (s.setToken t v).conduits = s.conduits := rfl
@[simp] theorem State.setToken_timebase : (s.setToken t v).timebase = s.timebase := rfl
@[simp] theorem State.setToken_cadences : (s.setToken t v).cadences = s.cadences := rfl
@[simp] theorem State.setToken_cutoff : (s.setToken t v).cutoff = s.cutoff := rfl
@[simp] theorem State.setToken_captures : (s.setToken t v).captures = s.captures := rfl
@[simp] theorem State.setToken_freeCount : (s.setToken t v).freeCount = s.freeCount := rfl
@[simp] theorem State.setToken_time : (s.setToken t v).time = s.time := rfl
@[simp] theorem State.setToken_link (y : Port) : (s.setToken t v).link y = s.link y := rfl
@[simp] theorem State.setToken_bank (y : Port) : (s.setToken t v).bank y = s.bank y := rfl
@[simp] theorem State.setToken_isActive (y : Port) : (s.setToken t v).isActive y = s.isActive y := rfl
@[simp] theorem State.setToken_conduit (j : BitVec 4) : (s.setToken t v).conduit j = s.conduit j := rfl
@[simp] theorem State.setToken_cadence (j : BitVec 2) : (s.setToken t v).cadence j = s.cadence j := rfl
@[simp] theorem State.setToken_capture (j : BitVec 2) : (s.setToken t v).capture j = s.capture j := rfl

end setToken

section mapCadence

variable (s : State) (k : BitVec 2) (f : Cadence → Cadence)

@[simp] theorem State.mapCadence_pending : (s.mapCadence k f).pending = s.pending := rfl
@[simp] theorem State.mapCadence_phase : (s.mapCadence k f).phase = s.phase := rfl
@[simp] theorem State.mapCadence_configLock : (s.mapCadence k f).configLock = s.configLock := rfl
@[simp] theorem State.mapCadence_turn : (s.mapCadence k f).turn = s.turn := rfl
@[simp] theorem State.mapCadence_links : (s.mapCadence k f).links = s.links := rfl
@[simp] theorem State.mapCadence_pins : (s.mapCadence k f).pins = s.pins := rfl
@[simp] theorem State.mapCadence_irq : (s.mapCadence k f).irq = s.irq := rfl
@[simp] theorem State.mapCadence_cadOut : (s.mapCadence k f).cadOut = s.cadOut := rfl
@[simp] theorem State.mapCadence_store : (s.mapCadence k f).store = s.store := rfl
@[simp] theorem State.mapCadence_banks : (s.mapCadence k f).banks = s.banks := rfl
@[simp] theorem State.mapCadence_conduits : (s.mapCadence k f).conduits = s.conduits := rfl
@[simp] theorem State.mapCadence_tokens : (s.mapCadence k f).tokens = s.tokens := rfl
@[simp] theorem State.mapCadence_timebase : (s.mapCadence k f).timebase = s.timebase := rfl
@[simp] theorem State.mapCadence_cutoff : (s.mapCadence k f).cutoff = s.cutoff := rfl
@[simp] theorem State.mapCadence_captures : (s.mapCadence k f).captures = s.captures := rfl
@[simp] theorem State.mapCadence_freeCount : (s.mapCadence k f).freeCount = s.freeCount := rfl
@[simp] theorem State.mapCadence_time : (s.mapCadence k f).time = s.time := rfl
@[simp] theorem State.mapCadence_link (y : Port) : (s.mapCadence k f).link y = s.link y := rfl
@[simp] theorem State.mapCadence_bank (y : Port) : (s.mapCadence k f).bank y = s.bank y := rfl
@[simp] theorem State.mapCadence_isActive (y : Port) : (s.mapCadence k f).isActive y = s.isActive y := rfl
@[simp] theorem State.mapCadence_conduit (j : BitVec 4) : (s.mapCadence k f).conduit j = s.conduit j := rfl
@[simp] theorem State.mapCadence_token (j : BitVec 4) : (s.mapCadence k f).token j = s.token j := rfl
@[simp] theorem State.mapCadence_capture (j : BitVec 2) : (s.mapCadence k f).capture j = s.capture j := rfl

end mapCadence

section mapCapture

variable (s : State) (k : BitVec 2) (f : Capture → Capture)

@[simp] theorem State.mapCapture_pending : (s.mapCapture k f).pending = s.pending := rfl
@[simp] theorem State.mapCapture_phase : (s.mapCapture k f).phase = s.phase := rfl
@[simp] theorem State.mapCapture_configLock : (s.mapCapture k f).configLock = s.configLock := rfl
@[simp] theorem State.mapCapture_turn : (s.mapCapture k f).turn = s.turn := rfl
@[simp] theorem State.mapCapture_links : (s.mapCapture k f).links = s.links := rfl
@[simp] theorem State.mapCapture_pins : (s.mapCapture k f).pins = s.pins := rfl
@[simp] theorem State.mapCapture_irq : (s.mapCapture k f).irq = s.irq := rfl
@[simp] theorem State.mapCapture_cadOut : (s.mapCapture k f).cadOut = s.cadOut := rfl
@[simp] theorem State.mapCapture_store : (s.mapCapture k f).store = s.store := rfl
@[simp] theorem State.mapCapture_banks : (s.mapCapture k f).banks = s.banks := rfl
@[simp] theorem State.mapCapture_conduits : (s.mapCapture k f).conduits = s.conduits := rfl
@[simp] theorem State.mapCapture_tokens : (s.mapCapture k f).tokens = s.tokens := rfl
@[simp] theorem State.mapCapture_timebase : (s.mapCapture k f).timebase = s.timebase := rfl
@[simp] theorem State.mapCapture_cadences : (s.mapCapture k f).cadences = s.cadences := rfl
@[simp] theorem State.mapCapture_cutoff : (s.mapCapture k f).cutoff = s.cutoff := rfl
@[simp] theorem State.mapCapture_freeCount : (s.mapCapture k f).freeCount = s.freeCount := rfl
@[simp] theorem State.mapCapture_time : (s.mapCapture k f).time = s.time := rfl
@[simp] theorem State.mapCapture_link (y : Port) : (s.mapCapture k f).link y = s.link y := rfl
@[simp] theorem State.mapCapture_bank (y : Port) : (s.mapCapture k f).bank y = s.bank y := rfl
@[simp] theorem State.mapCapture_isActive (y : Port) : (s.mapCapture k f).isActive y = s.isActive y := rfl
@[simp] theorem State.mapCapture_conduit (j : BitVec 4) : (s.mapCapture k f).conduit j = s.conduit j := rfl
@[simp] theorem State.mapCapture_token (j : BitVec 4) : (s.mapCapture k f).token j = s.token j := rfl
@[simp] theorem State.mapCapture_cadence (j : BitVec 2) : (s.mapCapture k f).cadence j = s.cadence j := rfl

end mapCapture

section setLink

variable (s : State) (x : Port) (l : Link)

@[simp] theorem State.setLink_pending : (s.setLink x l).pending = s.pending := rfl
@[simp] theorem State.setLink_phase : (s.setLink x l).phase = s.phase := rfl
@[simp] theorem State.setLink_configLock : (s.setLink x l).configLock = s.configLock := rfl
@[simp] theorem State.setLink_turn : (s.setLink x l).turn = s.turn := rfl
@[simp] theorem State.setLink_pins : (s.setLink x l).pins = s.pins := rfl
@[simp] theorem State.setLink_irq : (s.setLink x l).irq = s.irq := rfl
@[simp] theorem State.setLink_cadOut : (s.setLink x l).cadOut = s.cadOut := rfl
@[simp] theorem State.setLink_store : (s.setLink x l).store = s.store := rfl
@[simp] theorem State.setLink_banks : (s.setLink x l).banks = s.banks := rfl
@[simp] theorem State.setLink_conduits : (s.setLink x l).conduits = s.conduits := rfl
@[simp] theorem State.setLink_tokens : (s.setLink x l).tokens = s.tokens := rfl
@[simp] theorem State.setLink_timebase : (s.setLink x l).timebase = s.timebase := rfl
@[simp] theorem State.setLink_cadences : (s.setLink x l).cadences = s.cadences := rfl
@[simp] theorem State.setLink_cutoff : (s.setLink x l).cutoff = s.cutoff := rfl
@[simp] theorem State.setLink_captures : (s.setLink x l).captures = s.captures := rfl
@[simp] theorem State.setLink_freeCount : (s.setLink x l).freeCount = s.freeCount := rfl
@[simp] theorem State.setLink_time : (s.setLink x l).time = s.time := rfl
@[simp] theorem State.setLink_bank (y : Port) : (s.setLink x l).bank y = s.bank y := rfl
@[simp] theorem State.setLink_isActive (y : Port) : (s.setLink x l).isActive y = s.isActive y := rfl
@[simp] theorem State.setLink_conduit (j : BitVec 4) : (s.setLink x l).conduit j = s.conduit j := rfl
@[simp] theorem State.setLink_token (j : BitVec 4) : (s.setLink x l).token j = s.token j := rfl
@[simp] theorem State.setLink_cadence (j : BitVec 2) : (s.setLink x l).cadence j = s.cadence j := rfl
@[simp] theorem State.setLink_capture (j : BitVec 2) : (s.setLink x l).capture j = s.capture j := rfl

end setLink

end Sys2Proof.Machine
end

