-- ==== Sys2Proof/Laws/Flow.lean ====
section
/-! SUPPORT. The operations that visit every conduit or every token: what each leaves behind, said once. -/

namespace Sys2Proof.Machine

theorem mem_sixteen (n : BitVec 4) : n ∈ sixteen := by revert n; decide

theorem nodup_sixteen : sixteen.Nodup := by decide

theorem oneHot_getLsbD (c n : BitVec 4) : (oneHot c).getLsbD n.toNat = true ↔ n = c := by
  revert c n; decide

/-! ## Visiting the conduits -/

/-- A bank's COMMIT notices, and (`new`) those of them that were set at the current instant (R11). -/
def commitMarks (new : Bool) (b : Bank) : BitVec 16 := if new then b.fresh.commit else b.conduits.commitNotice

/-- From `s` to `t`, the conduits of `sel` change by `F`, port `y` gets the COMMIT notice of those that `N y` names, marked
as set at this instant, and nothing else changes. -/
structure Visited (sel : BitVec 4 → Prop) (F : Conduit → Conduit) (N : Port → Conduit → Prop) (s t : State) : Prop where
  inside  : ∀ n, sel n → t.conduit n = F (s.conduit n)
  outside : ∀ n, ¬ sel n → t.conduit n = s.conduit n
  notice  : ∀ new y n, (commitMarks new (t.bank y)).getLsbD n.toNat = true ↔
    (commitMarks new (s.bank y)).getLsbD n.toNat = true ∨ (sel n ∧ N y (s.conduit n))
  banks   : ∀ y, t.bank y =
    { s.bank y with
      conduits := { (s.bank y).conduits with commitNotice := (t.bank y).conduits.commitNotice }
      fresh := { (s.bank y).fresh with commit := (t.bank y).fresh.commit } }
  rest    : t = { s with conduits := t.conduits, banks := t.banks }

variable {F : Conduit → Conduit} {N : Port → Conduit → Prop} {s t u : State} {A : BitVec 4 → Prop} {n : BitVec 4}

theorem Visited.nothing : Visited (fun _ => False) F N s s :=
  ⟨fun _ h => h.elim, fun _ _ => rfl, fun _ _ _ => by simp, fun _ => rfl, rfl⟩

/-- One more conduit is visited. -/
theorem Visited.one_more (h : Visited A F N s t) (hn : ¬ A n) (g : Visited (· = n) F N t u) :
    Visited (fun m => A m ∨ m = n) F N s u where
  inside m hm := by
    rcases hm with hm | rfl
    · have : m ≠ n := fun e => hn (e ▸ hm)
      rw [g.outside m this, h.inside m hm]
    · rw [g.inside m rfl, h.outside m hn]
  outside m hm := by
    rw [g.outside m fun e => hm (.inr e), h.outside m fun e => hm (.inl e)]
  notice new y m := by
    rw [g.notice, h.notice]
    by_cases e : m = n
    · subst e
      rw [h.outside m hn]
      simp [hn]
    · simp [e]
  banks y := by rw [g.banks y, h.banks y]
  rest := by rw [g.rest, h.rest]

/-- A fold over distinct conduits visits them all. -/
theorem Visited.fold {step : State → BitVec 4 → State} (hs : ∀ s n, Visited (· = n) F N s (step s n))
    (l : List (BitVec 4)) (hl : l.Nodup) (hA : ∀ n ∈ l, ¬ A n) (h : Visited A F N s t) :
    Visited (fun m => A m ∨ m ∈ l) F N s (l.foldl step t) := by
  induction l generalizing A t with
  | nil => simpa using h
  | cons c l ih =>
    obtain ⟨hc, hl⟩ := List.nodup_cons.mp hl
    have := ih (A := fun m => A m ∨ m = c) hl
      (fun n hn => by
        rintro (e | rfl)
        · exact hA n (by simp [hn]) e
        · exact hc hn)
      (h.one_more (hA c (by simp)) (hs t c))
    simpa [List.foldl, or_assoc] using this

theorem Visited.all {step : State → BitVec 4 → State} (hs : ∀ s n, Visited (· = n) F N s (step s n)) (s : State) :
    Visited (fun _ => True) F N s (sixteen.foldl step s) := by
  have := Visited.fold hs sixteen nodup_sixteen (A := fun _ => False) (fun _ _ h => h) (Visited.nothing (s := s))
  simpa [mem_sixteen] using this

/-- One conduit changed by `F`, without a notice. -/
theorem Visited.change (hN : ∀ y, ¬ N y (s.conduit n)) : Visited (· = n) F N s (s.mapConduit n F) where
  inside m hm := by subst hm; simp
  outside m hm := by rw [State.conduit_mapConduit, if_neg hm]
  notice new y m := by
    rw [State.mapConduit_bank]
    constructor
    · exact .inl
    · rintro (h | ⟨rfl, h⟩)
      · exact h
      · exact absurd h (hN y)
  banks _ := rfl
  rest := rfl

/-- One conduit changed by `F`, with the notice of port `x`. -/
theorem Visited.change_note {x : Port} (hN : ∀ y, N y (s.conduit n) ↔ y = x) :
    Visited (· = n) F N s ((s.mapConduit n F).noteCommit x n) where
  inside m hm := by subst hm; simp [State.noteCommit]
  outside m hm := by simp [State.noteCommit, State.conduit_mapConduit, hm]
  notice new y m := by
    by_cases h : y = x
    · subst h
      rw [show commitMarks new (((s.mapConduit n F).noteCommit y n).bank y) = commitMarks new (s.bank y) ||| oneHot n by
          cases new <;> simp [State.noteCommit, commitMarks],
        BitVec.getLsbD_or, Bool.or_eq_true, oneHot_getLsbD]
      constructor
      · rintro (h | rfl)
        · exact .inl h
        · exact .inr ⟨rfl, (hN y).mpr rfl⟩
      · rintro (h | ⟨rfl, _⟩)
        · exact .inl h
        · exact .inr rfl
    · rw [State.noteCommit, State.bank_mapBank, if_neg h, State.mapConduit_bank]
      constructor
      · exact .inl
      · rintro (g | ⟨rfl, g⟩)
        · exact g
        · exact absurd ((hN y).mp g) h
  banks y := by
    by_cases h : y = x
    · subst h; simp [State.noteCommit]
    · rw [State.noteCommit, State.bank_mapBank, if_neg h, State.mapConduit_bank]
  rest := rfl

/-- Nothing is done to one conduit. -/
theorem Visited.skip (hF : F (s.conduit n) = s.conduit n) (hN : ∀ y, ¬ N y (s.conduit n)) : Visited (· = n) F N s s where
  inside m hm := by subst hm; exact hF.symm
  outside _ _ := rfl
  notice new y m := by
    constructor
    · exact .inl
    · rintro (h | ⟨rfl, h⟩)
      · exact h
      · exact absurd h (hN y)
  banks _ := rfl
  rest := rfl

/-! ## Release and flush (R105, R106) -/

/-- The release at a tick, and the flush, in the words of R105. -/
theorem releaseBound_flushed (k : BitVec 2) (s : State) : Flushed (· = k) s (releaseBound k s) := by
  have h := Visited.all (s := s)
    (F := fun c => if c.enabled = true ∧ c.timed = true ∧ c.cadence = k then c.flushed else c)
    (N := fun y c => c.enabled = true ∧ c.timed = true ∧ c.cadence = k ∧ c.ready ≠ [] ∧ y = c.producer.other)
    (step := fun s n =>
      if (s.conduit n).enabled && (s.conduit n).timed && (s.conduit n).cadence == k then releaseReady n s else s)
    (by
      intro s n
      by_cases hb : (s.conduit n).enabled = true ∧ (s.conduit n).timed = true ∧ (s.conduit n).cadence = k
      · rw [if_pos (by simpa [and_assoc] using hb), releaseReady]
        by_cases hr : (s.conduit n).ready = []
        · rw [if_pos (by simp [hr])]
          refine Visited.skip ?_ (fun y h => h.2.2.2.1 hr)
          rw [if_pos hb, Conduit.flushed, hr]
          cases h : s.conduit n; simp_all
        · rw [if_neg (by simpa using hr)]
          have e : s.mapConduit n (·.released) =
              s.mapConduit n (fun c =>
                if c.enabled = true ∧ c.timed = true ∧ c.cadence = k then c.flushed else c) := by
            unfold State.mapConduit Table.map
            congr 2
            show (s.conduit n).released = _
            beta_reduce
            rw [show Table.get s.conduits n = s.conduit n from rfl, if_pos hb, Conduit.flushed, if_neg hr,
              Conduit.released, Conduit.isLatest]
            simp
          show Visited _ _ _ _ (State.noteCommit (s.mapConduit n (·.released)) _ _)
          rw [e]
          exact Visited.change_note (fun y => by simp [hb, hr, Conduit.consumer])
      · rw [if_neg (by simpa [and_assoc] using hb)]
        exact Visited.skip (if_neg hb) (fun y h => hb ⟨h.1, h.2.1, h.2.2.1⟩))
  rw [← releaseBound] at h
  generalize releaseBound k s = t at h ⊢
  refine ⟨fun n h1 h2 h3 => ?_, fun n h0 => ?_, fun y n => ?_, fun y n => ?_, h.banks, h.rest⟩
  · rw [h.inside n trivial, if_pos ⟨h1, h2, h3⟩]
  · rw [h.inside n trivial, if_neg h0]
  · simpa [commitMarks] using h.notice false y n
  · simpa [commitMarks] using h.notice true y n

/-! ## Revocation (R107, R108) -/

/-- The COMMIT notice that the revocation of `x` sets for a port (R107). -/
def revocationNotes (x y : Port) (c : Conduit) : Prop :=
  y = x ∧ x ≠ c.producer ∧ c.reading ≠ none ∧ (c.mode = 1 → c.visible = [] ∧ c.ready = [])

/-- The revocation of one conduit, in the words of R107. -/
theorem revokeOn_visited (x : Port) (n : BitVec 4) (s : State) :
    Visited (· = n) (Conduit.revoked · x) (revocationNotes x) s (revokeOn x n s) := by
  have set_eq : ∀ f : Conduit → Conduit, f (s.conduit n) = (s.conduit n).revoked x →
      s.mapConduit n f = s.mapConduit n (Conduit.revoked · x) := by
    intro f h
    unfold State.mapConduit Table.map
    rw [show Table.get s.conduits n = s.conduit n from rfl, h]
  unfold revokeOn
  by_cases hp : x = (s.conduit n).producer
  · simp only [if_pos hp]
    rw [set_eq _ (by simp [Conduit.revoked, ← hp])]
    exact Visited.change fun y h => h.2.1 hp
  · simp only [if_neg hp]
    cases hr : (s.conduit n).reading with
    | none =>
      refine Visited.skip ?_ (fun y h => h.2.2.1 hr)
      simp [Conduit.revoked, hp, hr]
    | some i =>
      simp only
      rw [set_eq _ (by
        simp only [Conduit.revoked, hp, if_false, hr, Conduit.givenBack, Conduit.isLatest]
        by_cases hm : (s.conduit n).mode = 1 <;> by_cases hv : (s.conduit n).visible = [] <;>
          by_cases hd : (s.conduit n).ready = [] <;> simp_all)]
      have hb : ((s.conduit n).givenBack i).2 = true ↔
          ((s.conduit n).mode = 1 → (s.conduit n).visible = [] ∧ (s.conduit n).ready = []) := by
        simp only [Conduit.givenBack, Conduit.isLatest]
        by_cases hm : (s.conduit n).mode = 1 <;> by_cases hv : (s.conduit n).visible = [] <;>
          by_cases hd : (s.conduit n).ready = [] <;> simp_all
      by_cases h2 : ((s.conduit n).givenBack i).2 = true
      · rw [if_pos h2]
        refine Visited.change_note fun y => ⟨fun h => h.1, ?_⟩
        rintro rfl
        exact ⟨rfl, hp, by simp [hr], hb.mp h2⟩
      · rw [if_neg h2]
        exact Visited.change fun y h => h2 (hb.mpr h.2.2.2)

/-- The revocation of a port, over all conduits (R108). -/
theorem revoke_visited (x : Port) (onExpiry : Bool) (s : State) :
    Visited (fun _ => True)
      (fun c => if c.enabled = true ∧ ¬ (onExpiry = true ∧ c.holdOnLoss = true) then c.revoked x else c)
      (fun y c => (c.enabled = true ∧ ¬ (onExpiry = true ∧ c.holdOnLoss = true)) ∧ revocationNotes x y c)
      s (revoke x onExpiry s) := by
  refine Visited.all (fun s n => ?_) s
  have he : ((s.conduit n).enabled && !(onExpiry && (s.conduit n).holdOnLoss)) = true ↔
      ((s.conduit n).enabled = true ∧ ¬ (onExpiry = true ∧ (s.conduit n).holdOnLoss = true)) := by
    cases (s.conduit n).enabled <;> cases (s.conduit n).holdOnLoss <;> cases onExpiry <;> simp
  by_cases hb : (s.conduit n).enabled = true ∧ ¬ (onExpiry = true ∧ (s.conduit n).holdOnLoss = true)
  · rw [if_pos (he.mpr hb)]
    have h := revokeOn_visited x n s
    exact
      { inside := fun m hm => by
          subst hm
          rw [h.inside m rfl, if_pos hb]
        outside := h.outside
        notice := fun new y m => by
          rw [h.notice]
          constructor
          · rintro (g | ⟨rfl, g⟩)
            · exact .inl g
            · exact .inr ⟨rfl, hb, g⟩
          · rintro (g | ⟨rfl, g⟩)
            · exact .inl g
            · exact .inr ⟨rfl, g.2⟩
        banks := h.banks
        rest := h.rest }
  · rw [if_neg (mt he.mp hb)]
    exact Visited.skip (if_neg hb) fun y h => hb h.1

/-! ## The release of a port's tokens (R113, R117) -/

/-- A bank's TOKEN notices, and (`new`) those of them that were set at the current instant (R11). -/
def tokenMarks (new : Bool) (b : Bank) : BitVec 16 := if new then b.fresh.token else b.tokens.notice

/-- From `s` to `t`, port `x`'s tokens of `sel` are withdrawn, its partner gets the notice of those handed over, marked as
set at this instant, and nothing else changes. -/
structure Withdrawn (sel : BitVec 4 → Prop) (x : Port) (s t : State) : Prop where
  inside  : ∀ n, sel n → t.token n = (s.token n).withdrawn x
  outside : ∀ n, ¬ sel n → t.token n = s.token n
  notice  : ∀ (new : Bool) (n : BitVec 4), (tokenMarks new (t.bank x.other)).getLsbD n.toNat = true ↔
    (tokenMarks new (s.bank x.other)).getLsbD n.toNat = true ∨
      (sel n ∧ (s.token n).holder = some x ∧ (s.token n).wait.get x.other = true)
  own     : t.bank x = s.bank x
  partner : t.bank x.other =
    { s.bank x.other with
      tokens := { (s.bank x.other).tokens with notice := (t.bank x.other).tokens.notice }
      fresh := { (s.bank x.other).fresh with token := (t.bank x.other).fresh.token } }
  rest    : t = { s with tokens := t.tokens, banks := t.banks }

theorem setToken_setToken (s : State) (t : BitVec 4) (v w : Token) : (s.setToken t v).setToken t w = s.setToken t w := by
  unfold State.setToken
  congr 1
  exact Table.ext fun i => by simp only [Table.get_set]; split <;> rfl

theorem setToken_noteToken (s : State) (y : Port) (n t : BitVec 4) (w : Token) :
    (s.noteToken y n).setToken t w = (s.setToken t w).noteToken y n := rfl

/-- The release by a holder, written out (R113). -/
theorem releaseToken_eq (y : Port) (t : BitVec 4) (s : State) :
    releaseToken y t s =
      if (s.token t).wait.get y.other = true then (s.setToken t ((s.token t).passed y)).noteToken y.other t
      else s.setToken t ((s.token t).passed y) := by
  unfold releaseToken Token.passed
  split <;> rename_i h <;> simp [h]

theorem withdrawn_one (x : Port) (s : State) (n : BitVec 4) :
    Withdrawn (· = n) x s
      ((if (s.token n).holder = some x then releaseToken x n s else s).setToken n
        { (if (s.token n).holder = some x then releaseToken x n s else s).token n with
          wait := ((if (s.token n).holder = some x then releaseToken x n s else s).token n).wait.set x false }) := by
  have plain : ∀ v : Token, v = (s.token n).withdrawn x →
      ¬ ((s.token n).holder = some x ∧ (s.token n).wait.get x.other = true) → Withdrawn (· = n) x s (s.setToken n v) := by
    intro v hv hw
    refine ⟨fun m hm => by subst hm; simp [hv], fun m hm => by rw [State.token_setToken, if_neg hm], fun new m => ?_, rfl,
      rfl, rfl⟩
    rw [State.setToken_bank]
    constructor
    · exact .inl
    · rintro (h | ⟨rfl, h⟩)
      · exact h
      · exact absurd h hw
  by_cases hh : (s.token n).holder = some x
  · simp only [if_pos hh, releaseToken_eq]
    by_cases hw : (s.token n).wait.get x.other = true
    · simp only [if_pos hw]
      rw [setToken_noteToken, setToken_setToken]
      have hv : ({ ((s.setToken n ((s.token n).passed x)).noteToken x.other n).token n with
          wait := (((s.setToken n ((s.token n).passed x)).noteToken x.other n).token n).wait.set x false } : Token)
          = (s.token n).withdrawn x := by
        simp [State.noteToken, Token.withdrawn, hh]
      rw [hv]
      refine ⟨fun m hm => by subst hm; simp [State.noteToken], fun m hm => ?_, fun new m => ?_, ?_, ?_, rfl⟩
      · simp [State.noteToken, State.token_setToken, hm]
      · rw [show ∀ v : Token, tokenMarks new (((s.setToken n v).noteToken x.other n).bank x.other)
              = tokenMarks new (s.bank x.other) ||| oneHot n by
            intro v; cases new <;> simp [State.noteToken, tokenMarks],
          BitVec.getLsbD_or, Bool.or_eq_true, oneHot_getLsbD]
        constructor
        · rintro (h | rfl)
          · exact .inl h
          · exact .inr ⟨rfl, hh, hw⟩
        · rintro (h | ⟨rfl, _⟩)
          · exact .inl h
          · exact .inr rfl
      · simp [State.noteToken, State.bank_mapBank]
      · simp [State.noteToken]
    · simp only [if_neg hw]
      rw [setToken_setToken]
      exact plain _ (by simp [Token.withdrawn, hh]) fun h => hw h.2
  · simp only [if_neg hh]
    exact plain _ (by simp [Token.withdrawn, hh]) fun h => hh h.1

theorem Withdrawn.one_more {x : Port} (h : Withdrawn A x s t) (hn : ¬ A n) (g : Withdrawn (· = n) x t u) :
    Withdrawn (fun m => A m ∨ m = n) x s u where
  inside m hm := by
    rcases hm with hm | rfl
    · have : m ≠ n := fun e => hn (e ▸ hm)
      rw [g.outside m this, h.inside m hm]
    · rw [g.inside m rfl, h.outside m hn]
  outside m hm := by
    rw [g.outside m fun e => hm (.inr e), h.outside m fun e => hm (.inl e)]
  notice new m := by
    rw [g.notice, h.notice]
    by_cases e : m = n
    · subst e
      rw [h.outside m hn]
      simp [hn]
    · simp [e]
  own := by rw [g.own, h.own]
  partner := by rw [g.partner, h.partner]
  rest := by rw [g.rest, h.rest]

/-- The release of a lost or reset port's tokens, in the words of R117. -/
theorem releaseTokensOf_withdrawn (x : Port) (s : State) : Withdrawn (fun _ => True) x s (releaseTokensOf x s) := by
  suffices ∀ (l : List (BitVec 4)) (A : BitVec 4 → Prop) (t : State), l.Nodup → (∀ n ∈ l, ¬ A n) → Withdrawn A x s t →
      Withdrawn (fun m => A m ∨ m ∈ l) x s (l.foldl (fun s t =>
        (if (s.token t).holder = some x then releaseToken x t s else s).setToken t
          { (if (s.token t).holder = some x then releaseToken x t s else s).token t with
            wait := ((if (s.token t).holder = some x then releaseToken x t s else s).token t).wait.set x false }) t) by
    have h := this sixteen (fun _ => False) s nodup_sixteen (fun _ _ h => h)
      ⟨fun _ h => h.elim, fun _ _ => rfl, fun _ _ => by simp, rfl, rfl, rfl⟩
    simp only [mem_sixteen, or_true] at h
    exact h
  intro l
  induction l with
  | nil => intro A t _ _ h; simpa using h
  | cons c l ih =>
    intro A t hl hA h
    obtain ⟨hc, hl⟩ := List.nodup_cons.mp hl
    have := ih (fun m => A m ∨ m = c) _ hl
      (fun n hn => by
        rintro (e | rfl)
        · exact hA n (by simp [hn]) e
        · exact hc hn)
      (h.one_more (hA c (by simp)) (withdrawn_one x t c))
    simpa [List.foldl, or_assoc] using this

/-! ## Captures and the four cadences (R157, R158, R152) -/

theorem Capture.take_eq (c : Capture) (t : Time) (cause : CapCause) : c.take t cause = c.after t cause := by
  unfold Capture.take Capture.after
  cases hu : c.unread <;> cases hm : c.mode <;> simp

theorem cases_four (k : BitVec 2) : k = 0 ∨ k = 1 ∨ k = 2 ∨ k = 3 := by revert k; decide

/-- Every channel that the test selects takes the event, and nothing else changes. -/
theorem captureWhere_eq (sel : Capture → Bool) (t : Time) (s : State) :
    (∀ k, (captureWhere sel t s).capture k =
      if sel (s.capture k) = true then (s.capture k).after t .internal else s.capture k) ∧
    captureWhere sel t s = { s with captures := (captureWhere sel t s).captures } := by
  have one : ∀ (s : State) (k : BitVec 2), (if sel (s.capture k) = true then s.mapCapture k (·.take t .internal) else s) =
      s.mapCapture k (fun c => if sel c = true then c.after t .internal else c) := by
    intro s k
    unfold State.mapCapture Table.map
    beta_reduce
    rw [show Table.get s.captures k = s.capture k from rfl, Capture.take_eq]
    split
    · rfl
    · have : Table.set s.captures k (s.capture k) = s.captures := Table.ext fun i => by
        rw [Table.get_set]; split
        · rename_i h; rw [h]; rfl
        · rfl
      rw [this]
  simp only [captureWhere, four, List.foldl, one]
  refine ⟨fun k => ?_, rfl⟩
  simp only [State.capture_mapCapture]
  rcases cases_four k with rfl | rfl | rfl | rfl <;> simp

/-- Every pulse ends, and nothing else changes. -/
theorem endPulses_eq (s : State) :
    (∀ k, (endPulses s).cadence k = { s.cadence k with pulse := .off }) ∧
    endPulses s = { s with cadences := (endPulses s).cadences } := by
  refine ⟨fun k => ?_, rfl⟩
  simp only [endPulses, four, List.foldl, State.cadence_mapCadence]
  rcases cases_four k with rfl | rfl | rfl | rfl <;> simp

theorem Conduit.flushed_flushed (c : Conduit) : c.flushed.flushed = c.flushed := by
  unfold Conduit.flushed
  simp

theorem or_split {p e f a b r : Prop} (h : ¬ (e ∧ f ∧ a)) :
    ((p ∨ e ∧ f ∧ a ∧ r) ∨ e ∧ f ∧ b ∧ r) ↔ p ∨ e ∧ f ∧ (a ∨ b) ∧ r := by
  constructor
  · rintro ((hp | ⟨he, hf, ha, _⟩) | ⟨he, hf, hb, hr⟩)
    · exact .inl hp
    · exact absurd ⟨he, hf, ha⟩ h
    · exact .inr ⟨he, hf, .inr hb, hr⟩
  · rintro (hp | ⟨he, hf, ha | hb, hr⟩)
    · exact .inl (.inl hp)
    · exact absurd ⟨he, hf, ha⟩ h
    · exact .inr ⟨he, hf, hb, hr⟩

/-- Two flushes are the flush of both sets of cadences. -/
theorem Flushed.trans {A B : BitVec 2 → Prop} (h : Flushed A s t) (g : Flushed B t u) :
    Flushed (fun k => A k ∨ B k) s u := by
  have key : ∀ n, (t.conduit n).enabled = (s.conduit n).enabled ∧ (t.conduit n).timed = (s.conduit n).timed ∧
      (t.conduit n).cadence = (s.conduit n).cadence ∧ (t.conduit n).producer = (s.conduit n).producer := by
    intro n
    by_cases hn : (s.conduit n).enabled = true ∧ (s.conduit n).timed = true ∧ A (s.conduit n).cadence
    · rw [h.bound n hn.1 hn.2.1 hn.2.2]; exact ⟨rfl, rfl, rfl, rfl⟩
    · rw [h.other n hn]; exact ⟨rfl, rfl, rfl, rfl⟩
  have join : ∀ y n, ∀ p q r : Prop, (q ↔ p ∨ ((s.conduit n).enabled = true ∧ (s.conduit n).timed = true ∧
      A (s.conduit n).cadence ∧ (s.conduit n).ready ≠ [] ∧ y = (s.conduit n).producer.other)) →
      (r ↔ q ∨ ((t.conduit n).enabled = true ∧ (t.conduit n).timed = true ∧ B (t.conduit n).cadence ∧
        (t.conduit n).ready ≠ [] ∧ y = (t.conduit n).producer.other)) →
      (r ↔ p ∨ ((s.conduit n).enabled = true ∧ (s.conduit n).timed = true ∧
        (A (s.conduit n).cadence ∨ B (s.conduit n).cadence) ∧ (s.conduit n).ready ≠ [] ∧
        y = (s.conduit n).producer.other)) := by
    intro y n p q r hq hr
    obtain ⟨k1, k2, k3, k4⟩ := key n
    rw [hr, hq, k1, k2, k3, k4]
    by_cases hn : (s.conduit n).enabled = true ∧ (s.conduit n).timed = true ∧ A (s.conduit n).cadence
    · have e : (t.conduit n).ready = [] := by rw [h.bound n hn.1 hn.2.1 hn.2.2]; rfl
      simp [e, hn]
    · rw [h.other n hn]
      exact or_split hn
  refine ⟨fun n h1 h2 h3 => ?_, fun n h0 => ?_, fun y n => join y n _ _ _ (h.notice y n) (g.notice y n),
    fun y n => join y n _ _ _ (h.fresh y n) (g.fresh y n), fun y => by rw [g.banks, h.banks], by rw [g.rest, h.rest]⟩
  · obtain ⟨k1, k2, k3, _⟩ := key n
    by_cases ha : A (s.conduit n).cadence
    · have e := h.bound n h1 h2 ha
      by_cases hb : B (s.conduit n).cadence
      · rw [g.bound n (k1 ▸ h1) (k2 ▸ h2) (k3 ▸ hb), e, Conduit.flushed_flushed]
      · rw [g.other n fun hc => hb (k3 ▸ hc.2.2), e]
    · have e := h.other n fun hc => ha hc.2.2
      rw [g.bound n (k1 ▸ h1) (k2 ▸ h2) (k3 ▸ h3.resolve_left ha), e]
  · obtain ⟨k1, k2, k3, _⟩ := key n
    rw [g.other n fun hc => h0 ⟨k1 ▸ hc.1, k2 ▸ hc.2.1, .inr (k3 ▸ hc.2.2)⟩,
      h.other n fun hc => h0 ⟨hc.1, hc.2.1, .inl hc.2.2⟩]

/-- Where no cadence is selected nothing is flushed. -/
theorem Flushed.nothing {A : BitVec 2 → Prop} (h : ∀ k, ¬ A k) (s : State) : Flushed A s s :=
  ⟨fun _ _ _ h3 => (h _ h3).elim, fun _ _ => rfl, fun _ _ => by simp [h], fun _ _ => by simp [h], fun _ => rfl, rfl⟩

/-- A flush leaves the cadences alone and does not read them. -/
theorem Flushed.withCadences {A : BitVec 2 → Prop} (h : Flushed A s t) (c : Table 2 Cadence) :
    Flushed A { s with cadences := c } { t with cadences := c } :=
  ⟨h.bound, h.other, h.notice, h.fresh, h.banks, by rw [h.rest]⟩

theorem Flushed.cadences {A : BitVec 2 → Prop} (h : Flushed A s t) : t.cadences = s.cadences := by rw [h.rest]

/-- The halting of one cadence: a live one becomes STOPPED and its conduits are flushed. -/
theorem haltCadence_flushed (k : BitVec 2) (s : State) :
    (∀ j, (haltCadence k s).cadence j =
      if j = k ∧ (s.cadence k).live = true then { s.cadence j with state := .stopped } else s.cadence j) ∧
    Flushed (fun j => j = k ∧ (s.cadence k).live = true) { s with cadences := (haltCadence k s).cadences }
      (haltCadence k s) := by
  unfold haltCadence
  by_cases hl : (s.cadence k).live = true
  · rw [if_pos hl]
    simp only [hl, and_true]
    have h := releaseBound_flushed k (s.mapCadence k fun c => { c with state := .stopped })
    refine ⟨fun j => ?_, ?_⟩
    · rw [State.cadence, h.cadences]
      show (s.mapCadence k fun c => { c with state := .stopped }).cadence j = _
      rw [State.cadence_mapCadence]
      split
      · rename_i e; rw [e]
      · rfl
    · rw [h.cadences]; exact h
  · rw [if_neg hl]
    exact ⟨fun j => by simp [hl], Flushed.nothing (fun j h => hl h.2) s⟩

end Sys2Proof.Machine
end

