-- ==== Sys2Proof/Laws/Clock.lean ====
section
/-! SUPPORT. Core clocks and the rows that ride on them: what each can do, said once, and the parts of a clock whose words
in Safety.lean differ from their definitions. -/

namespace Sys2Proof.Machine

variable {s : State} {falls : State → Bool}

@[simp] theorem clocks_zero (s : State) : clocks 0 s = s := rfl

@[simp] theorem clocks_succ (n : Nat) (s : State) : clocks (n + 1) s = clocks n (coreClock s) := rfl

theorem clocks_add (m n : Nat) (s : State) : clocks (m + n) s = clocks n (clocks m s) := by
  induction m generalizing s with
  | zero => simp
  | succ m ih => rw [Nat.succ_add, clocks_succ, ih, clocks_succ]

/-- The last of the clocks apart from those before it. -/
theorem clocks_succ_last (n : Nat) (s : State) : clocks (n + 1) s = coreClock (clocks n s) := clocks_add n 1 s

/-- What every core clock keeps, any number of them keep. -/
theorem clocks_keep {P : State → Prop} (h : ∀ s, P s → P (coreClock s)) (n : Nat) (hs : P s) : P (clocks n s) := by
  induction n generalizing s with
  | zero => exact hs
  | succ n ih => exact ih (h s hs)

/-- An event of the next clock is that clock, or nothing. -/
theorem eventAtClock_cases (falls : State → Bool) (s : State) :
    (s.phase = .run ∧ falls s = true ∧ eventAtClock falls s = coreClock s) ∨
    (¬ (s.phase = .run ∧ falls s = true) ∧ eventAtClock falls s = s) := by
  unfold eventAtClock
  by_cases h : s.phase = .run ∧ falls s = true
  · exact .inl ⟨h.1, h.2, if_pos (by simpa using h)⟩
  · exact .inr ⟨h, if_neg (by simpa using h)⟩

/-- An event of the next tick is the clocks up to and with that tick, or nothing. -/
theorem eventAtTick_cases (falls : State → Bool) (s : State) :
    (s.phase = .run ∧ falls (beforeTick s) = true ∧
      eventAtTick falls s = clocks (s.timebase.left - 1 + 1) s) ∨
    (¬ (s.phase = .run ∧ falls (beforeTick s) = true) ∧ eventAtTick falls s = s) := by
  unfold eventAtTick
  by_cases h : s.phase = .run ∧ falls (beforeTick s) = true
  · exact .inl ⟨h.1, h.2, (if_pos (by simpa using h)).trans (clocks_succ_last _ _).symm⟩
  · exact .inr ⟨h, if_neg (by simpa using h)⟩

/-- A pin row moves the pins, and a clock passes. -/
theorem clockWithPins_eq (pins : Pins) (s : State) : clockWithPins pins s = coreClock { s with pins := pins } := rfl

/-- While RESET_N is low no clock does anything (R170). -/
theorem coreClock_held (h : s.phase = .held) : coreClock s = s := by rw [coreClock, h]

theorem coreClock_run (h : s.phase = .run) : coreClock s = runEvents (newInstant s) := by rw [coreClock, h]

/-- The detection test at the next sample, in the words of R152. -/
theorem detectionFalls_iff (s : State) : detectionFalls s = true ↔ PinDemands s := by
  simp [detectionFalls, sampleCutoff, Cutoff.pinDemand, and_assoc]

/-- One sample of a capture pin, in the words of R156. -/
theorem Capture.sampleAt_eq (c : Capture) (v : Bool) (t : Time) : c.sampleAt v t = c.sampled v t := by
  unfold Capture.sampleAt Capture.sampled Capture.Selects Capture.matches
  rcases hs : c.sample with _ | old
  · simp
  · cases old <;> cases v <;> simp [edgeBetween, Capture.take_eq, edgeCause]

/-- Every pin is sampled once, and nothing else changes. -/
theorem sampleCaptures_eq (s : State) :
    (∀ k, (sampleCaptures s).capture k = (s.capture k).sampled (s.pins.capIn.getLsbD k.toNat) s.timebase.time) ∧
    sampleCaptures s = { s with captures := (sampleCaptures s).captures } := by
  refine ⟨fun k => ?_, rfl⟩
  simp only [sampleCaptures, four, List.foldl, State.capture_mapCapture, Capture.sampleAt_eq]
  rcases cases_four k with rfl | rfl | rfl | rfl <;> simp [State.time]

/-- A monitor counts, in the words of R163. -/
theorem Monitor.counts_iff (m : Monitor) : m.counts = true ↔ m.Counting := by
  simp [Monitor.counts]

end Sys2Proof.Machine
end

