-- ==== Sys2Proof/Laws/Window.lean ====
section
/-! SUPPORT. The address partition and the register map: every register is reached at its own offset, and nowhere else. -/

namespace Sys2Proof

open Sys2Proof.Machine

/-- The offset of a register is assigned to it (Table 1.3). -/
@[simp] theorem Reg.ofOffset_offset (r : Reg) : Reg.ofOffset r.offset = some r := by
  cases r with
  | cfg f c => cases f <;> (revert c; decide)
  | cfgEnable c | cfgStatus c | cfgOccupancy c => revert c; decide
  | cadConfig k | cadStartLo k | cadStartHi k | cadPeriod k | cadPeriodStage k | cadWidth k | cadWidthStage k
  | cadCommand k | cadStatus k | cadNextLo k | cadNextHi k | cadAck k | capConfig k | capInfo k | capTimeLo k
  | capTimeHi k => revert k; decide
  | liveLimit y => cases y <;> decide
  | counter n => cases n <;> decide
  | _ => decide

/-- Every register stands at a multiple of 4 (R7). -/
theorem Reg.offset_aligned (r : Reg) : r.offset.extractLsb' 0 2 = 0 := by
  cases r with
  | cfg f c => cases f <;> (revert c; decide)
  | cfgEnable c | cfgStatus c | cfgOccupancy c => revert c; decide
  | cadConfig k | cadStartLo k | cadStartHi k | cadPeriod k | cadPeriodStage k | cadWidth k | cadWidthStage k
  | cadCommand k | cadStatus k | cadNextLo k | cadNextHi k | cadAck k | capConfig k | capInfo k | capTimeLo k
  | capTimeHi k => revert k; decide
  | liveLimit y => cases y <;> decide
  | counter n => cases n <;> decide
  | _ => decide

theorem getLsbD_windowAddr (off : BitVec 12) (i : Nat) :
    (windowAddr off).getLsbD i = (decide (i < 12) && off.getLsbD i) := by
  refine (BitVec.getLsbD_append (x := 0#12) (y := off) (i := i)).trans ?_
  by_cases h : i < 12 <;> simp [h]

theorem getLsbD_viewAddr (off : BitVec 20) (i : Nat) :
    (viewAddr off).getLsbD i = if i < 20 then off.getLsbD i else decide (i = 20) := by
  refine (BitVec.getLsbD_append (x := 1#4) (y := off) (i := i)).trans ?_
  by_cases h : i < 20
  · simp [h]
  · have : (i - 20 = 0) ↔ (i = 20) := by omega
    simp [h, BitVec.getLsbD_one, this]

@[simp] theorem space_windowAddr (off : BitVec 12) : space (windowAddr off) = .window off := by
  have h1 : (windowAddr off).extractLsb' 12 12 = 0 := by
    apply BitVec.eq_of_getLsbD_eq; intro i hi
    simp [getLsbD_windowAddr]
  have h2 : (windowAddr off).extractLsb' 0 12 = off := by
    apply BitVec.eq_of_getLsbD_eq; intro i hi
    simp [getLsbD_windowAddr, hi]
  simp only [space, h1, h2, if_pos]

@[simp] theorem space_viewAddr (off : BitVec 20) : space (viewAddr off) = .view off := by
  have h1 : (viewAddr off).extractLsb' 12 12 ≠ 0 := by
    intro h
    have := congrArg (fun v => BitVec.getLsbD v 8) h
    simp only [BitVec.getLsbD_extractLsb', getLsbD_viewAddr] at this
    simp at this
  have h2 : (viewAddr off).extractLsb' 20 4 = 1 := by
    apply BitVec.eq_of_getLsbD_eq; intro i hi
    simp [getLsbD_viewAddr, hi]
  have h3 : (viewAddr off).extractLsb' 0 20 = off := by
    apply BitVec.eq_of_getLsbD_eq; intro i hi
    simp [getLsbD_viewAddr, hi]
  simp only [space, h2, h3, if_pos, if_neg h1]

/-- Only the window's own addresses select the window (Table 1.2). -/
theorem eq_windowAddr {a : PortAddr} {off : BitVec 12} (h : space a = .window off) : a = windowAddr off := by
  unfold space at h
  split at h
  · rename_i h0
    cases h
    apply BitVec.eq_of_getLsbD_eq; intro i hi
    by_cases hi' : i < 12
    · simp [getLsbD_windowAddr, hi']
    · have := congrArg (fun v => BitVec.getLsbD v (i - 12)) h0
      have e : 12 + (i - 12) = i := by omega
      simp [e] at this
      simp [getLsbD_windowAddr, hi', this (by omega)]
  · split at h <;> cases h

/-- Only the view space's own addresses select it (Table 1.2). -/
theorem eq_viewAddr {a : PortAddr} {off : BitVec 20} (h : space a = .view off) : a = viewAddr off := by
  unfold space at h
  split at h
  · cases h
  · split at h
    · rename_i h0
      cases h
      apply BitVec.eq_of_getLsbD_eq; intro i hi
      by_cases hi' : i < 20
      · simp [getLsbD_viewAddr, hi']
      · have := congrArg (fun v => BitVec.getLsbD v (i - 20)) h0
        have e : 20 + (i - 20) = i := by omega
        have e2 : (i - 20 = 0) ↔ (i = 20) := by omega
        have e3 : i - 20 < 4 := by omega
        simp [e, e2, e3] at this
        simp [getLsbD_viewAddr, hi', this]
    · cases h

@[simp] theorem aligned_windowAddr_offset (r : Reg) : aligned (windowAddr r.offset) 2#2 = true := by
  have h : (windowAddr r.offset).extractLsb' 0 2 = 0 := by
    rw [← Reg.offset_aligned r]
    apply BitVec.eq_of_getLsbD_eq; intro i hi
    have : i < 12 := by omega
    simp [getLsbD_windowAddr, hi, this]
  simp [aligned, h]

end Sys2Proof

namespace Sys2Proof.Machine

/-- A 4-byte access at a register's offset reaches that register. -/
theorem access_reg (x : Port) (r : Reg) (op : BusOp) (s : State) :
    access x { addr := windowAddr r.offset, size := 2, op := op } s = regAccess x r op s := by
  simp [access, windowAccess]

@[simp] theorem access_writeTo (x : Port) (r : Reg) (w : Word) (s : State) :
    access x (writeTo r w) s = regAccess x r (.write w) s := access_reg x r _ s

@[simp] theorem access_readOf (x : Port) (r : Reg) (s : State) : access x (readOf r) s = regAccess x r .read s :=
  access_reg x r _ s

end Sys2Proof.Machine
end

