-- ==== Sys2Proof/Laws/Link.lean ====
section
/-! SUPPORT. What a transaction taken now does: one law per verdict. -/

namespace Sys2Proof.Machine

variable {x : Port} {s u : State} {t : Txn}

theorem answered_eq (x : Port) (r : Response) (s u : State) :
    (restartMonitor x (s.isActive x) u).setLink x (.taken r) = answered x r s u := by
  unfold restartMonitor answered State.isActive State.setLink State.mapMonitor State.mapBank Monitor.restarted
  cases h : (s.bank x).monitor.presence <;> simp

/-- Nothing is awaited where the transaction is taken now. -/
theorem awaitTake_ready {p : Sender} (h : ready p s = true) : awaitTake p s = s := by simp [awaitTake, h]

/-- The step of a transaction taken now. -/
theorem present_solo (h : Takes x s) (t : Txn) :
    present (solo x) t s = answered x (operate x t s).2 s
      (applyVerdict x t (access x t s).2 (access x t s).1).1 := by
  rw [present, awaitTake_ready h.ready]
  simp only [take, solo, takeStep, h.runs]
  rw [← answered_eq]
  rfl

/-- A host command is its transaction, presented. -/
theorem exec_request {c : Instr} {p : Sender} {t : Txn} (h : c.request = some (p, t)) (s : State) :
    exec c s = .next (present p t s) := by
  cases c <;> simp only [Instr.request, Option.some.injEq, Prod.mk.injEq, reduceCtorEq] at h <;>
    (obtain ⟨rfl, rfl⟩ := h; rfl)

/-- A performed transaction. -/
theorem present_okay (h : Takes x s) {d : Word} (ha : access x t s = (u, .okay d)) :
    present (solo x) t s = answered x { resp := .okay, rdata := d } s u := by
  rw [present_solo h]; simp [operate, ha, applyVerdict]

/-- A faulted transaction. -/
theorem present_fault (h : Takes x s) {r : FaultReason} (ha : access x t s = (u, .faulted r)) :
    present (solo x) t s = answered x { resp := .fault, rdata := 0 } s (recordFault x t r u) := by
  rw [present_solo h]; simp [operate, ha, applyVerdict]

/-- A deny condition met while the deny record is EMPTY (R57). -/
theorem present_deny (h : Takes x s) {r : DenyReason} {a : BitVec 2} {c : BitVec 4}
    (ha : access x t s = (u, .denied r a c)) (he : (u.bank x).records.deny = none) :
    present (solo x) t s = answered x { resp := .deny, rdata := 0 } s (recordDeny x t r a c u) := by
  rw [present_solo h]; simp [operate, ha, applyVerdict, he]

/-- A deny condition met while the deny record is LATCHED (R58). -/
theorem present_double_deny (h : Takes x s) {r : DenyReason} {a : BitVec 2} {c : BitVec 4} {d : DenyRecord}
    (ha : access x t s = (u, .denied r a c)) (he : (u.bank x).records.deny = some d) :
    present (solo x) t s = answered x { resp := .fault, rdata := 0 } s (recordFault x t .doubleDeny u) := by
  rw [present_solo h]; simp [operate, ha, applyVerdict, he]

/-- A write to a writable register, past the register checks. -/
theorem present_write (h : Takes x s) {r : Reg} {w : Word} (hw : writerOf r ≠ .readOnly)
    (hr : writeRefusal s x r w = none) :
    present (solo x) (writeTo r w) s = answered x { resp := .okay, rdata := 0 } s (regWrite x r w s) :=
  present_okay h (by simp [regAccess, hw, hr])

/-- A write refused by a register check. -/
theorem present_write_refused (h : Takes x s) {r : Reg} {w : Word} {f : FaultReason} (hw : writerOf r ≠ .readOnly)
    (hr : writeRefusal s x r w = some f) :
    present (solo x) (writeTo r w) s =
      answered x { resp := .fault, rdata := 0 } s (recordFault x (writeTo r w) f s) :=
  present_fault h (by simp [regAccess, hw, hr])

/-- A register read. -/
theorem present_read (h : Takes x s) (r : Reg) :
    present (solo x) (readOf r) s = answered x { resp := .okay, rdata := regRead s x r } s (readEffect x r s) :=
  present_okay h (by simp [regAccess])

/-! ## The checks a register's writes meet -/

/-- A register of a port's own copy has no further check. -/
theorem writeRefusal_own {r : Reg} {w : Word} (hw : writerOf r ≠ .steward) (hl : inLockedSet r = false)
    (hc : r ≠ .cutoffControl) (hb : configBusy s r = false) : writeRefusal s x r w = none := by
  simp [writeRefusal, hw, lockRefuses, hl, hc, hb]

/-- The steward's write to a register outside the locked set. -/
theorem writeRefusal_steward {r : Reg} {w : Word} (hl : inLockedSet r = false) (hc : r ≠ .cutoffControl)
    (hb : configBusy s r = false) : writeRefusal s .A r w = none := by
  simp [writeRefusal, lockRefuses, hl, hc, hb]

/-- The steward's write while CONFIG_LOCK is 0. -/
theorem writeRefusal_unlocked {r : Reg} {w : Word} (hl : s.configLock = false) (hb : configBusy s r = false) :
    writeRefusal s .A r w = none := by simp [writeRefusal, lockRefuses, hl, hb]

/-! ## Records -/

/-- One event counted, written out (R64, R65). -/
theorem countEvent_eq (s : State) (x : Port) (n : Counter) (hn : n ≠ .loss) :
    s.countEvent x n = s.mapBank x fun b =>
      { b with
        records := b.records.withCount n (if b.records.count n = 255 then 255 else b.records.count n + 1)
        events := { b.events with
                    latches := if b.records.count n = 254 then b.events.latches ||| oneHot lineCounter
                               else b.events.latches }
        fresh := { b.fresh with
                   latch := if b.records.count n = 254 then b.fresh.latch ||| oneHot lineCounter
                            else b.fresh.latch } } := by
  have keep : ∀ (r : Records) (v : BitVec 8), r.count n = v → r.withCount n v = r := by
    intro r v h; subst h; cases n <;> rfl
  unfold State.countEvent
  cases x <;>
  · simp only [State.bank, PerPort.get, State.mapBank, PerPort.map, PerPort.set, State.latch]
    split
    · rename_i h
      have k := keep _ _ h
      simp only [BitVec.ofNat_eq_ofNat] at k h
      simp [h, k]
    · split <;> simp_all

/-- A fault recorded, written out (R61, R64, R65). -/
theorem faults_of_access (h : Takes x s) {c : Instr} {r : FaultReason} (ha : access x t s = (u, .faulted r))
    (hc : exec c s = .next (present (solo x) t s)) : Faults c x t r s u := by
  rw [Faults, hc, present_fault h ha, recordFault, countEvent_eq _ _ _ (by decide), State.mapRecords,
    State.mapBank_mapBank]
  congr 3
  funext b
  cases b.records.fault <;> rfl

/-- A command refusal counted, written out (R64, R65). -/
theorem countRefusal_eq (s : State) (x : Port) : s.countEvent x .refuse = s.mapBank x refusedBank :=
  countEvent_eq s x .refuse (by decide)

end Sys2Proof.Machine
end

