-- ==== Sys2Proof/Laws/Memory.lean ====
section
/-! SUPPORT. The store: a read after a write, and that every store operation keeps the canonical form. -/

namespace Sys2Proof.Machine

/-- Every listed address is above `k`. -/
def Memory.above (k : Nat) (m : List Host.Cell) : Prop := ∀ c ∈ m, k < c.1

/-- The canonical form, one cell at a time. -/
theorem Memory.wf_cons (k : Nat) (v : Byte) (m : List Host.Cell) :
    Memory.wf ((k, v) :: m) = true ↔ k < storeSize ∧ v ≠ 0 ∧ Memory.above k m ∧ Memory.wf m = true := by
  induction m generalizing k v with
  | nil => simp [Memory.wf, Memory.above]
  | cons c m ih =>
    obtain ⟨k', v'⟩ := c
    rw [show Memory.wf ((k, v) :: (k', v') :: m) = (decide (k < k') && v != 0 && Memory.wf ((k', v') :: m)) from rfl]
    simp only [Bool.and_eq_true, decide_eq_true_eq, bne_iff_ne, ih k' v', Memory.above, List.mem_cons, forall_eq_or_imp]
    constructor
    · rintro ⟨⟨h, hv⟩, hs, hv', ha, hw⟩
      exact ⟨by omega, hv, ⟨h, fun c hc => lt_trans h (ha c hc)⟩, hs, hv', ha, hw⟩
    · rintro ⟨_, hv, ⟨h, _⟩, hs, hv', ha, hw⟩
      exact ⟨⟨h, hv⟩, hs, hv', ha, hw⟩

/-- A byte below every listed address is unlisted. -/
theorem Memory.read_above {k a : Nat} {m : List Host.Cell} (h : Memory.above k m) (ha : a ≤ k) : Memory.read m a = 0 := by
  induction m with
  | nil => rfl
  | cons c m ih =>
    have hc := h c (by simp)
    have : c.1 ≠ a := by omega
    rw [Memory.read, if_neg this]
    exact ih fun d hd => h d (by simp [hd])

/-- A write lists no address but its own and those listed before. -/
theorem Memory.mem_write {m : List Host.Cell} {a : Nat} {b : Byte} {c : Host.Cell} (h : c ∈ Memory.write m a b) :
    c.1 = a ∨ c ∈ m := by
  induction m with
  | nil => rw [Memory.write] at h; split at h <;> simp_all
  | cons d m ih =>
    obtain ⟨k, v⟩ := d
    rw [Memory.write] at h
    split at h
    · split at h
      · exact .inr h
      · rcases List.mem_cons.mp h with rfl | h <;> simp_all
    · split at h
      · split at h
        · exact .inr (by simp [h])
        · rcases List.mem_cons.mp h with rfl | h <;> simp_all
      · rcases List.mem_cons.mp h with h | h
        · simp [h]
        · rcases ih h with h | h <;> simp [h]

/-- A write inside the store keeps the canonical form. -/
theorem Memory.wf_write {m : List Host.Cell} (h : Memory.wf m = true) {a : Nat} (ha : a < storeSize) (b : Byte) :
    Memory.wf (Memory.write m a b) = true := by
  induction m with
  | nil =>
    rw [Memory.write]
    split
    · rfl
    · simp_all [Memory.wf]
  | cons d m ih =>
    obtain ⟨k, v⟩ := d
    obtain ⟨hk, hv, hab, hw⟩ := (Memory.wf_cons k v m).mp h
    rw [Memory.write]
    split
    · rename_i hlt
      split
      · exact h
      · rename_i hb
        refine (Memory.wf_cons a b _).mpr ⟨ha, hb, ?_, h⟩
        intro c hc
        rcases List.mem_cons.mp hc with rfl | hc
        · exact hlt
        · exact lt_trans hlt (hab c hc)
    · split
      · rename_i he
        subst he
        split
        · exact hw
        · rename_i hb
          exact (Memory.wf_cons a b m).mpr ⟨hk, hb, hab, hw⟩
      · rename_i hlt hne
        refine (Memory.wf_cons k v _).mpr ⟨hk, hv, ?_, ih hw⟩
        intro c hc
        rcases Memory.mem_write hc with h | h
        · omega
        · exact hab c h

/-- A read after a write: the byte written at its address, every other byte as before. -/
theorem Memory.read_write {m : List Host.Cell} (h : Memory.wf m = true) (a : Nat) (b : Byte) (x : Nat) :
    Memory.read (Memory.write m a b) x = if x = a then b else Memory.read m x := by
  induction m with
  | nil =>
    rw [Memory.write]
    split <;> rename_i hb
    · simp [Memory.read, hb]
    · by_cases hx : x = a
      · simp [Memory.read, hx]
      · simp [Memory.read, hx, Ne.symm hx]
  | cons d m ih =>
    obtain ⟨k, v⟩ := d
    obtain ⟨_, _, hab, hw⟩ := (Memory.wf_cons k v m).mp h
    rw [Memory.write]
    split
    · rename_i hlt
      have hz : Memory.read ((k, v) :: m) a = 0 :=
        Memory.read_above (k := a) (by
          intro c hc
          rcases List.mem_cons.mp hc with rfl | hc
          · exact hlt
          · exact lt_trans hlt (hab c hc)) le_rfl
      split
      · rename_i hb
        by_cases hx : x = a
        · simp [hx, hz, hb]
        · simp [hx]
      · by_cases hx : x = a
        · simp [Memory.read, hx]
        · rw [Memory.read, if_neg (Ne.symm hx), if_neg hx]
    · split
      · rename_i he
        subst he
        split
        · rename_i hb
          by_cases hx : x = a
          · subst hx; simp [Memory.read_above hab le_rfl, hb]
          · rw [if_neg hx, Memory.read, if_neg (Ne.symm hx)]
        · by_cases hx : x = a
          · simp [Memory.read, hx]
          · simp [Memory.read, hx, Ne.symm hx]
      · rename_i hne
        rw [Memory.read, Memory.read, ih hw]
        by_cases hx : x = a
        · subst hx; rw [if_neg (Ne.symm hne)]; simp
        · simp [hx]

/-! ## The wider operations -/

theorem Memory.wf_nil : Memory.wf [] = true := rfl

theorem word_byte_lt (i : BitVec 16) {n : Nat} (h : n < 4) : 4 * i.toNat + n < storeSize := by
  have := i.isLt
  unfold storeSize
  omega

theorem Memory.wf_storeLane {m : List Host.Cell} (h : Memory.wf m = true) (a : StoreAddr) (size : BitVec 2) (d : Word)
    {n : Nat} (hn : n < 4) : Memory.wf (Memory.storeLane a size d m n) = true := by
  unfold Memory.storeLane
  split
  · exact Memory.wf_write h (word_byte_lt _ hn) _
  · exact h

/-- A store write keeps the canonical form. -/
theorem Memory.wf_store {m : List Host.Cell} (h : Memory.wf m = true) (a : StoreAddr) (size : BitVec 2) (d : Word) :
    Memory.wf (Memory.store m a size d) = true := by
  simp only [Memory.store, List.foldl]
  exact Memory.wf_storeLane (Memory.wf_storeLane (Memory.wf_storeLane (Memory.wf_storeLane h _ _ _ (by decide))
    _ _ _ (by decide)) _ _ _ (by decide)) _ _ _ (by decide)

/-- A word write keeps the canonical form. -/
theorem Memory.wf_storeWord {m : List Host.Cell} (h : Memory.wf m = true) (i : BitVec 16) (w : Word) :
    Memory.wf (Memory.storeWord m i w) = true := by
  simp only [Memory.storeWord, List.foldl]
  exact Memory.wf_write (Memory.wf_write (Memory.wf_write (Memory.wf_write h (word_byte_lt i (by decide)) _)
    (word_byte_lt i (by decide)) _) (word_byte_lt i (by decide)) _) (word_byte_lt i (by decide)) _

/-- Whatever the free list holds, the store it describes has the canonical form. -/
theorem Memory.wf_ofFree (l : List Host.Cell) : Memory.wf (Memory.ofFree l) = true := by
  unfold Memory.ofFree
  suffices ∀ m, Memory.wf m = true →
      Memory.wf (l.foldl (fun m c => Memory.write m (c.1 % storeSize) c.2) m) = true from this [] Memory.wf_nil
  induction l with
  | nil => exact fun m h => h
  | cons c l ih => exact fun m h => ih _ (Memory.wf_write h (Nat.mod_lt _ (by decide)) _)

/-- The store after reset has the canonical form. -/
theorem Memory.wf_reset : Memory.wf State.reset.store = true := rfl

end Sys2Proof.Machine
end

