-- ==== Sys2Proof/Laws/Words.lean ====
section
/-! SUPPORT. The written words of the rows: a word that already carries the bits that name its row is the row's word. -/

namespace Sys2Proof.Machine

theorem getLsbD_withBits (w mask v : Word) (i : Nat) :
    (withBits w mask v).getLsbD i = if mask.getLsbD i then v.getLsbD i else w.getLsbD i := by
  by_cases hi : i < 32
  · cases h : mask.getLsbD i <;>
      simp only [withBits, BitVec.getLsbD_or, BitVec.getLsbD_and, BitVec.getLsbD_not, hi, h] <;> simp
  · have : ∀ u : Word, u.getLsbD i = false := fun u => BitVec.getLsbD_of_ge u i (by omega)
    simp [this]

/-- A word that already carries a row's bits is the row's word. -/
theorem fixedWord_of {ones zeros w : Word}
    (h : ∀ i < 32, (ones ||| zeros).getLsbD i = true → w.getLsbD i = ones.getLsbD i) : fixedWord ones zeros w = w := by
  apply BitVec.eq_of_getLsbD_eq; intro i hi
  rw [fixedWord, getLsbD_withBits]
  split
  · rename_i hm; exact (h i hi hm).symm
  · rfl

theorem commandWord_eq {op : BitVec 4} {w : Word} (h : w.extractLsb' 0 4 = op) : commandWord op w = w := by
  subst h
  apply BitVec.eq_of_getLsbD_eq; intro i hi
  have : (0xF#32).getLsbD i = decide (i < 4) := by interval_cases i <;> decide
  rw [commandWord, getLsbD_withBits, this]
  by_cases h4 : i < 4 <;> simp [h4, hi]

theorem tokenWord_eq {op : BitVec 2} {w : Word} (h : w.extractLsb' 0 2 = op) : tokenWord op w = w := by
  subst h
  apply BitVec.eq_of_getLsbD_eq; intro i hi
  have : (0x3#32).getLsbD i = decide (i < 2) := by interval_cases i <;> decide
  rw [tokenWord, getLsbD_withBits, this]
  by_cases h2 : i < 2
  · simp only [h2, hi, decide_true, if_true, BitVec.getLsbD_setWidth, BitVec.getLsbD_extractLsb']; simp
  · simp [h2]

theorem badOpWord_eq {w : Word} (h : isBadOp (w.extractLsb' 0 4) = true) : badOpWord w = w := by
  simp [badOpWord, h]

theorem fixedWord_1_0 {w : Word} (h0 : bit w 0 = true) : fixedWord 1 0 w = w := by
  apply fixedWord_of; intro i hi hm
  interval_cases i <;> first | exact absurd hm (by decide) | exact h0

theorem fixedWord_2_1 {w : Word} (h1 : bit w 1 = true) (h0 : bit w 0 = false) : fixedWord 2 1 w = w := by
  apply fixedWord_of; intro i hi hm
  interval_cases i <;> first | exact absurd hm (by decide) | exact h1 | exact h0

theorem fixedWord_0_x80000000 {w : Word} (h31 : bit w 31 = false) : fixedWord 0 0x80000000 w = w := by
  apply fixedWord_of; intro i hi hm
  interval_cases i <;> first | exact absurd hm (by decide) | exact h31

theorem fixedWord_x80000000_0 {w : Word} (h31 : bit w 31 = true) : fixedWord 0x80000000 0 w = w := by
  apply fixedWord_of; intro i hi hm
  interval_cases i <;> first | exact absurd hm (by decide) | exact h31

theorem fixedWord_0_1 {w : Word} (h0 : bit w 0 = false) : fixedWord 0 1 w = w := by
  apply fixedWord_of; intro i hi hm
  interval_cases i <;> first | exact absurd hm (by decide) | exact h0

theorem fixedWord_x100_x003 {w : Word} (h8 : bit w 8 = true) (h0 : bit w 0 = false) (h1 : bit w 1 = false) :
    fixedWord 0x100 0x003 w = w := by
  apply fixedWord_of; intro i hi hm
  interval_cases i <;> first | exact absurd hm (by decide) | exact h8 | exact h0 | exact h1

theorem fixedWord_x200_x103 {w : Word} (h9 : bit w 9 = true) (h0 : bit w 0 = false) (h1 : bit w 1 = false) (h8 : bit w 8 = false) :
    fixedWord 0x200 0x103 w = w := by
  apply fixedWord_of; intro i hi hm
  interval_cases i <;> first | exact absurd hm (by decide) | exact h9 | exact h0 | exact h1 | exact h8

theorem fixedWord_x400_x303 {w : Word} (h10 : bit w 10 = true) (h0 : bit w 0 = false) (h1 : bit w 1 = false)
    (h8 : bit w 8 = false) (h9 : bit w 9 = false) :
    fixedWord 0x400 0x303 w = w := by
  apply fixedWord_of; intro i hi hm
  interval_cases i <;> first | exact absurd hm (by decide) | exact h10 | exact h0 | exact h1 | exact h8 | exact h9

theorem fixedWord_x800_x703 {w : Word} (h11 : bit w 11 = true) (h0 : bit w 0 = false) (h1 : bit w 1 = false)
    (h8 : bit w 8 = false) (h9 : bit w 9 = false) (h10 : bit w 10 = false) :
    fixedWord 0x800 0x703 w = w := by
  apply fixedWord_of; intro i hi hm
  interval_cases i <;>
    first | exact absurd hm (by decide) | exact h11 | exact h0 | exact h1 | exact h8 | exact h9 | exact h10

theorem fixedWord_2_0 {w : Word} (h1 : bit w 1 = true) : fixedWord 2 0 w = w := by
  apply fixedWord_of; intro i hi hm
  interval_cases i <;> first | exact absurd hm (by decide) | exact h1

theorem fixedWord_0_2 {w : Word} (h1 : bit w 1 = false) : fixedWord 0 2 w = w := by
  apply fixedWord_of; intro i hi hm
  interval_cases i <;> first | exact absurd hm (by decide) | exact h1

theorem fixedWord_soft {w : Word} (h : w.extractLsb' 8 4 = 0) : fixedWord 0 0xF00 w = w := by
  apply fixedWord_of; intro i hi hm
  have hb : ∀ j, j < 4 → w.getLsbD (8 + j) = false := fun j hj => by
    have := congrArg (fun v => BitVec.getLsbD v j) h
    simpa [hj] using this
  interval_cases i <;>
    first | exact absurd hm (by decide) | exact hb 0 (by decide) | exact hb 1 (by decide) | exact hb 2 (by decide)
          | exact hb 3 (by decide)

end Sys2Proof.Machine
end

