-- ==== Sys2Proof/Laws/PerInstr.lean ====
section
/-! SUPPORT. The per-command family RoundTrip: the transaction that a well-formed command presents is classified as that
command again. -/

namespace Sys2Proof.Laws.RoundTrip

open Sys2Proof Sys2Proof.Machine

/-- A well-formed command that presents a transaction is the command that the transaction is. -/
def Statement (i : Instr) : Prop :=
  i.wellFormed = true → ∀ p t, i.request = some (p, t) → Instr.ofTxn p t = i

/-- What a command presents, taken apart. -/
theorem presents {p q : Sender} {t u : Txn} (e : some (p, t) = some (q, u)) : p = q ∧ t = u := by
  cases e; exact ⟨rfl, rfl⟩

/-- What a 4-byte write of a register is. -/
theorem ofTxn_writeTo (p : Sender) (r : Reg) (w : Word) :
    Instr.ofTxn p (writeTo r w) = (rowOfWrite p r w).getD (.registerWrite p r.offset 2 w) := by
  simp [Instr.ofTxn, writeTo, ownRow]

/-- What a 4-byte read of a register is. -/
theorem ofTxn_readOf (p : Sender) (r : Reg) :
    Instr.ofTxn p (readOf r) = (rowOfRead p r).getD (.registerRead p r.offset 2) := by
  simp [Instr.ofTxn, readOf, ownRow]

theorem viewAccess (p : Sender) (off : BitVec 20) (size : BitVec 2) (op : BusOp) :
    Statement (.viewAccess p off size op) := by
  intro h q t e
  obtain ⟨rfl, rfl⟩ := presents e
  simp [Instr.ofTxn]

theorem unmappedAccess (p : Sender) (t : Txn) : Statement (.unmappedAccess p t) := by
  intro h q t e
  obtain ⟨rfl, rfl⟩ := presents e
  have hs : space t.addr = .unmapped := eq_of_beq h
  simp [Instr.ofTxn, hs]

theorem registerWrite (p : Sender) (off : BitVec 12) (size : BitVec 2) (w : Word) :
    Statement (.registerWrite p off size w) := by
  intro h q t e
  obtain ⟨rfl, rfl⟩ := presents e
  have hs : ownRow p off size (.write w) = none := Option.isNone_iff_eq_none.mp h
  simp [Instr.ofTxn, hs]

theorem bridgeReset (p : Sender) (w : Word) : Statement (.bridgeReset p w) := by
  intro h q t e
  obtain ⟨rfl, rfl⟩ := presents e
  have h : (bit w 0) = true := h
  rw [show fixedWord 1 0 w = w from fixedWord_1_0 h, ofTxn_writeTo]
  show (if bit w 0 then some (Instr.bridgeReset p w) else if bit w 1 then some (Instr.lock p w) else none).getD _ = _
  simp [h]

theorem lock (p : Sender) (w : Word) : Statement (.lock p w) := by
  intro h q t e
  obtain ⟨rfl, rfl⟩ := presents e
  have h : (bit w 1 && !bit w 0) = true := h
  simp only [Bool.and_eq_true, Bool.not_eq_true'] at h
  rw [show fixedWord 2 1 w = w from fixedWord_2_1 h.1 h.2, ofTxn_writeTo]
  show (if bit w 0 then some (Instr.bridgeReset p w) else if bit w 1 then some (Instr.lock p w) else none).getD _ = _
  simp [h]

theorem portReset (p : Sender) (w : Word) : Statement (.portReset p w) := by
  intro h q t e
  obtain ⟨rfl, rfl⟩ := presents e
  have h : (bit w 0) = true := h
  rw [show fixedWord 1 0 w = w from fixedWord_1_0 h, ofTxn_writeTo]
  show (if bit w 0 then some (Instr.portReset p w) else if bit w 1 then some (Instr.rejoin p w) else none).getD _ = _
  simp [h]

theorem rejoin (p : Sender) (w : Word) : Statement (.rejoin p w) := by
  intro h q t e
  obtain ⟨rfl, rfl⟩ := presents e
  have h : (bit w 1 && !bit w 0) = true := h
  simp only [Bool.and_eq_true, Bool.not_eq_true'] at h
  rw [show fixedWord 2 1 w = w from fixedWord_2_1 h.1 h.2, ofTxn_writeTo]
  show (if bit w 0 then some (Instr.portReset p w) else if bit w 1 then some (Instr.rejoin p w) else none).getD _ = _
  simp [h]

theorem viewBaseWrite (p : Sender) (w : Word) : Statement (.viewBaseWrite p w) := by
  intro h q t e
  obtain ⟨rfl, rfl⟩ := presents e
  rw [ofTxn_writeTo]; rfl

theorem viewControlWrite (p : Sender) (w : Word) : Statement (.viewControlWrite p w) := by
  intro h q t e
  obtain ⟨rfl, rfl⟩ := presents e
  rw [ofTxn_writeTo]; rfl

theorem singleInvalidation (p : Sender) (w : Word) : Statement (.singleInvalidation p w) := by
  intro h q t e
  obtain ⟨rfl, rfl⟩ := presents e
  have h : (!bit w 31) = true := h
  simp only [Bool.not_eq_true'] at h
  rw [show fixedWord 0 0x80000000 w = w from fixedWord_0_x80000000 h, ofTxn_writeTo]
  show (if bit w 31 then some (Instr.invalidateAll p w) else some (Instr.singleInvalidation p w)).getD _ = _
  simp [h]

theorem invalidateAll (p : Sender) (w : Word) : Statement (.invalidateAll p w) := by
  intro h q t e
  obtain ⟨rfl, rfl⟩ := presents e
  have h : (bit w 31) = true := h
  rw [show fixedWord 0x80000000 0 w = w from fixedWord_x80000000_0 h, ofTxn_writeTo]
  show (if bit w 31 then some (Instr.invalidateAll p w) else some (Instr.singleInvalidation p w)).getD _ = _
  simp [h]

theorem sweepProgress (x : Port) : Statement (.sweepProgress x) := by
  intro _ p t h; cases (show none = some (p, t) from h)

theorem sweepEnd (x : Port) : Statement (.sweepEnd x) := by
  intro _ p t h; cases (show none = some (p, t) from h)

theorem probe (p : Sender) (w : Word) : Statement (.probe p w) := by
  intro h q t e
  obtain ⟨rfl, rfl⟩ := presents e
  rw [ofTxn_writeTo]; rfl

theorem denyRelease (p : Sender) (w : Word) : Statement (.denyRelease p w) := by
  intro h q t e
  obtain ⟨rfl, rfl⟩ := presents e
  rw [ofTxn_writeTo]; rfl

theorem faultRelease (p : Sender) (w : Word) : Statement (.faultRelease p w) := by
  intro h q t e
  obtain ⟨rfl, rfl⟩ := presents e
  rw [ofTxn_writeTo]; rfl

theorem counterClear (p : Sender) (n : Counter) (w : Word) : Statement (.counterClear p n w) := by
  intro h q t e
  obtain ⟨rfl, rfl⟩ := presents e
  rw [ofTxn_writeTo]; rfl

theorem conduitConfigWrite (p : Sender) (r : CfgReg) (c : BitVec 4) (w : Word) :
    Statement (.conduitConfigWrite p r c w) := by
  intro h q t e
  obtain ⟨rfl, rfl⟩ := presents e
  rw [ofTxn_writeTo]; rfl

theorem conduitEnable (p : Sender) (c : BitVec 4) (w : Word) : Statement (.conduitEnable p c w) := by
  intro h q t e
  obtain ⟨rfl, rfl⟩ := presents e
  have h : (bit w 0) = true := h
  rw [show fixedWord 1 0 w = w from fixedWord_1_0 h, ofTxn_writeTo]
  show (if bit w 0 then some (Instr.conduitEnable p c w) else some (Instr.conduitDisable p c w)).getD _ = _
  simp [h]

theorem conduitDisable (p : Sender) (c : BitVec 4) (w : Word) : Statement (.conduitDisable p c w) := by
  intro h q t e
  obtain ⟨rfl, rfl⟩ := presents e
  have h : (!bit w 0) = true := h
  simp only [Bool.not_eq_true'] at h
  rw [show fixedWord 0 1 w = w from fixedWord_0_1 h, ofTxn_writeTo]
  show (if bit w 0 then some (Instr.conduitEnable p c w) else some (Instr.conduitDisable p c w)).getD _ = _
  simp [h]

theorem openWrite (p : Sender) (w : Word) : Statement (.openWrite p w) := by
  intro h q t e
  obtain ⟨rfl, rfl⟩ := presents e
  have hw : w.extractLsb' 0 4 = 1 := eq_of_beq h
  rw [commandWord_eq hw, ofTxn_writeTo]
  show (match w.extractLsb' 0 4 with
    | 1#4 => some (Instr.openWrite p w) | 2#4 => some (.commit p w) | 3#4 => some (.abandon p w)
    | 4#4 => some (.openRead p w) | 5#4 => some (.conduitRelease p w) | 6#4 => some (.returnSlot p w)
    | _ => some (.badOp p w)).getD _ = _
  rw [hw]; rfl

theorem commit (p : Sender) (w : Word) : Statement (.commit p w) := by
  intro h q t e
  obtain ⟨rfl, rfl⟩ := presents e
  have hw : w.extractLsb' 0 4 = 2 := eq_of_beq h
  rw [commandWord_eq hw, ofTxn_writeTo]
  show (match w.extractLsb' 0 4 with
    | 1#4 => some (Instr.openWrite p w) | 2#4 => some (.commit p w) | 3#4 => some (.abandon p w)
    | 4#4 => some (.openRead p w) | 5#4 => some (.conduitRelease p w) | 6#4 => some (.returnSlot p w)
    | _ => some (.badOp p w)).getD _ = _
  rw [hw]; rfl

theorem abandon (p : Sender) (w : Word) : Statement (.abandon p w) := by
  intro h q t e
  obtain ⟨rfl, rfl⟩ := presents e
  have hw : w.extractLsb' 0 4 = 3 := eq_of_beq h
  rw [commandWord_eq hw, ofTxn_writeTo]
  show (match w.extractLsb' 0 4 with
    | 1#4 => some (Instr.openWrite p w) | 2#4 => some (.commit p w) | 3#4 => some (.abandon p w)
    | 4#4 => some (.openRead p w) | 5#4 => some (.conduitRelease p w) | 6#4 => some (.returnSlot p w)
    | _ => some (.badOp p w)).getD _ = _
  rw [hw]; rfl

theorem openRead (p : Sender) (w : Word) : Statement (.openRead p w) := by
  intro h q t e
  obtain ⟨rfl, rfl⟩ := presents e
  have hw : w.extractLsb' 0 4 = 4 := eq_of_beq h
  rw [commandWord_eq hw, ofTxn_writeTo]
  show (match w.extractLsb' 0 4 with
    | 1#4 => some (Instr.openWrite p w) | 2#4 => some (.commit p w) | 3#4 => some (.abandon p w)
    | 4#4 => some (.openRead p w) | 5#4 => some (.conduitRelease p w) | 6#4 => some (.returnSlot p w)
    | _ => some (.badOp p w)).getD _ = _
  rw [hw]; rfl

theorem conduitRelease (p : Sender) (w : Word) : Statement (.conduitRelease p w) := by
  intro h q t e
  obtain ⟨rfl, rfl⟩ := presents e
  have hw : w.extractLsb' 0 4 = 5 := eq_of_beq h
  rw [commandWord_eq hw, ofTxn_writeTo]
  show (match w.extractLsb' 0 4 with
    | 1#4 => some (Instr.openWrite p w) | 2#4 => some (.commit p w) | 3#4 => some (.abandon p w)
    | 4#4 => some (.openRead p w) | 5#4 => some (.conduitRelease p w) | 6#4 => some (.returnSlot p w)
    | _ => some (.badOp p w)).getD _ = _
  rw [hw]; rfl

theorem returnSlot (p : Sender) (w : Word) : Statement (.returnSlot p w) := by
  intro h q t e
  obtain ⟨rfl, rfl⟩ := presents e
  have hw : w.extractLsb' 0 4 = 6 := eq_of_beq h
  rw [commandWord_eq hw, ofTxn_writeTo]
  show (match w.extractLsb' 0 4 with
    | 1#4 => some (Instr.openWrite p w) | 2#4 => some (.commit p w) | 3#4 => some (.abandon p w)
    | 4#4 => some (.openRead p w) | 5#4 => some (.conduitRelease p w) | 6#4 => some (.returnSlot p w)
    | _ => some (.badOp p w)).getD _ = _
  rw [hw]; rfl

theorem badOp (p : Sender) (w : Word) : Statement (.badOp p w) := by
  intro h q t e
  obtain ⟨rfl, rfl⟩ := presents e
  have hw : isBadOp (w.extractLsb' 0 4) = true := h
  rw [badOpWord_eq hw, ofTxn_writeTo]
  show (match w.extractLsb' 0 4 with
    | 1#4 => some (Instr.openWrite p w) | 2#4 => some (.commit p w) | 3#4 => some (.abandon p w)
    | 4#4 => some (.openRead p w) | 5#4 => some (.conduitRelease p w) | 6#4 => some (.returnSlot p w)
    | _ => some (.badOp p w)).getD _ = _
  split <;> first | rfl | (rename_i e; rw [e] at hw; exact absurd hw (by decide))

theorem commitNoticeClear (p : Sender) (w : Word) : Statement (.commitNoticeClear p w) := by
  intro h q t e
  obtain ⟨rfl, rfl⟩ := presents e
  rw [ofTxn_writeTo]; rfl

theorem drainNoticeClear (p : Sender) (w : Word) : Statement (.drainNoticeClear p w) := by
  intro h q t e
  obtain ⟨rfl, rfl⟩ := presents e
  rw [ofTxn_writeTo]; rfl

theorem resetNoticeClear (p : Sender) (w : Word) : Statement (.resetNoticeClear p w) := by
  intro h q t e
  obtain ⟨rfl, rfl⟩ := presents e
  rw [ofTxn_writeTo]; rfl

theorem cancel (p : Sender) (w : Word) : Statement (.cancel p w) := by
  intro h q t e
  obtain ⟨rfl, rfl⟩ := presents e
  have hw : w.extractLsb' 0 2 = 0 := eq_of_beq h
  rw [tokenWord_eq hw, ofTxn_writeTo]
  show (match w.extractLsb' 0 2 with
    | 0#2 => some (Instr.cancel p w) | 1#2 => some (.acquire p w) | 2#2 => some (.tokenRelease p w)
    | _ => some (.forceRelease p w)).getD _ = _
  rw [hw]; rfl

theorem acquire (p : Sender) (w : Word) : Statement (.acquire p w) := by
  intro h q t e
  obtain ⟨rfl, rfl⟩ := presents e
  have hw : w.extractLsb' 0 2 = 1 := eq_of_beq h
  rw [tokenWord_eq hw, ofTxn_writeTo]
  show (match w.extractLsb' 0 2 with
    | 0#2 => some (Instr.cancel p w) | 1#2 => some (.acquire p w) | 2#2 => some (.tokenRelease p w)
    | _ => some (.forceRelease p w)).getD _ = _
  rw [hw]; rfl

theorem tokenRelease (p : Sender) (w : Word) : Statement (.tokenRelease p w) := by
  intro h q t e
  obtain ⟨rfl, rfl⟩ := presents e
  have hw : w.extractLsb' 0 2 = 2 := eq_of_beq h
  rw [tokenWord_eq hw, ofTxn_writeTo]
  show (match w.extractLsb' 0 2 with
    | 0#2 => some (Instr.cancel p w) | 1#2 => some (.acquire p w) | 2#2 => some (.tokenRelease p w)
    | _ => some (.forceRelease p w)).getD _ = _
  rw [hw]; rfl

theorem forceRelease (p : Sender) (w : Word) : Statement (.forceRelease p w) := by
  intro h q t e
  obtain ⟨rfl, rfl⟩ := presents e
  have hw : w.extractLsb' 0 2 = 3 := eq_of_beq h
  rw [tokenWord_eq hw, ofTxn_writeTo]
  show (match w.extractLsb' 0 2 with
    | 0#2 => some (Instr.cancel p w) | 1#2 => some (.acquire p w) | 2#2 => some (.tokenRelease p w)
    | _ => some (.forceRelease p w)).getD _ = _
  rw [hw]; rfl

theorem tokenNoticeClear (p : Sender) (w : Word) : Statement (.tokenNoticeClear p w) := by
  intro h q t e
  obtain ⟨rfl, rfl⟩ := presents e
  rw [ofTxn_writeTo]; rfl

theorem ring (p : Sender) (w : Word) : Statement (.ring p w) := by
  intro h q t e
  obtain ⟨rfl, rfl⟩ := presents e
  rw [ofTxn_writeTo]; rfl

theorem doorbellClear (p : Sender) (w : Word) : Statement (.doorbellClear p w) := by
  intro h q t e
  obtain ⟨rfl, rfl⟩ := presents e
  rw [ofTxn_writeTo]; rfl

theorem linePendingClear (p : Sender) (w : Word) : Statement (.linePendingClear p w) := by
  intro h q t e
  obtain ⟨rfl, rfl⟩ := presents e
  rw [ofTxn_writeTo]; rfl

theorem routeWrite (p : Sender) (hi : Bool) (w : Word) : Statement (.routeWrite p hi w) := by
  intro h q t e
  obtain ⟨rfl, rfl⟩ := presents e
  rw [ofTxn_writeTo]
  cases hi <;> rfl

theorem softSet (p : Sender) (w : Word) : Statement (.softSet p w) := by
  intro h q t e
  obtain ⟨rfl, rfl⟩ := presents e
  have h : w.extractLsb' 8 4 ≠ 0 := bne_iff_ne.mp h
  rw [ofTxn_writeTo]
  show (if w.extractLsb' 8 4 ≠ 0 then some (Instr.softSet p w)
    else if w.extractLsb' 12 4 ≠ 0 then some (.softClr p w) else none).getD _ = _
  rw [if_pos h]; rfl

theorem softClr (p : Sender) (w : Word) : Statement (.softClr p w) := by
  intro h q t e
  obtain ⟨rfl, rfl⟩ := presents e
  have h : (w.extractLsb' 8 4 == 0 && w.extractLsb' 12 4 != 0) = true := h
  simp only [Bool.and_eq_true, beq_iff_eq, bne_iff_ne, ne_eq] at h
  rw [fixedWord_soft h.1, ofTxn_writeTo]
  show (if w.extractLsb' 8 4 ≠ 0 then some (Instr.softSet p w)
    else if w.extractLsb' 12 4 ≠ 0 then some (.softClr p w) else none).getD _ = _
  rw [if_neg (not_not_intro h.1), if_pos h.2]; rfl

theorem claim (p : Sender) : Statement (.claim p) := by
  intro h q t e
  obtain ⟨rfl, rfl⟩ := presents e
  rw [ofTxn_readOf]; rfl

theorem dismiss (p : Sender) (w : Word) : Statement (.dismiss p w) := by
  intro h q t e
  obtain ⟨rfl, rfl⟩ := presents e
  rw [ofTxn_writeTo]; rfl

theorem timeLoRead (p : Sender) : Statement (.timeLoRead p) := by
  intro h q t e
  obtain ⟨rfl, rfl⟩ := presents e
  rw [ofTxn_readOf]; rfl

theorem prescaleWrite (p : Sender) (w : Word) : Statement (.prescaleWrite p w) := by
  intro h q t e
  obtain ⟨rfl, rfl⟩ := presents e
  rw [ofTxn_writeTo]; rfl

theorem load (p : Sender) (w : Word) : Statement (.load p w) := by
  intro h q t e
  obtain ⟨rfl, rfl⟩ := presents e
  have h : (bit w 0) = true := h
  rw [show fixedWord 1 0 w = w from fixedWord_1_0 h, ofTxn_writeTo]
  show (if bit w 0 then some (Instr.load p w) else if bit w 1 then some (Instr.clrRefused p w) else none).getD _ = _
  simp [h]

theorem clrRefused (p : Sender) (w : Word) : Statement (.clrRefused p w) := by
  intro h q t e
  obtain ⟨rfl, rfl⟩ := presents e
  have h : (bit w 1 && !bit w 0) = true := h
  simp only [Bool.and_eq_true, Bool.not_eq_true'] at h
  rw [show fixedWord 2 1 w = w from fixedWord_2_1 h.1 h.2, ofTxn_writeTo]
  show (if bit w 0 then some (Instr.load p w) else if bit w 1 then some (Instr.clrRefused p w) else none).getD _ = _
  simp [h]

theorem tick : Statement (.tick) := by
  intro _ p t h; cases (show none = some (p, t) from h)

theorem timeLoadApply : Statement (.timeLoadApply) := by
  intro _ p t h; cases (show none = some (p, t) from h)

theorem liveWarn (x : Port) : Statement (.liveWarn x) := by
  intro _ p t h; cases (show none = some (p, t) from h)

theorem expiry (x : Port) : Statement (.expiry x) := by
  intro _ p t h; cases (show none = some (p, t) from h)

theorem cadenceTick (k : BitVec 2) : Statement (.cadenceTick k) := by
  intro _ p t h; cases (show none = some (p, t) from h)

theorem pulseEnd (k : BitVec 2) : Statement (.pulseEnd k) := by
  intro _ p t h; cases (show none = some (p, t) from h)

theorem cadPeriodStageWrite (p : Sender) (k : BitVec 2) (w : Word) : Statement (.cadPeriodStageWrite p k w) := by
  intro h q t e
  obtain ⟨rfl, rfl⟩ := presents e
  rw [ofTxn_writeTo]; rfl

theorem cadWidthStageWrite (p : Sender) (k : BitVec 2) (w : Word) : Statement (.cadWidthStageWrite p k w) := by
  intro h q t e
  obtain ⟨rfl, rfl⟩ := presents e
  rw [ofTxn_writeTo]; rfl

theorem arm (p : Sender) (k : BitVec 2) (w : Word) : Statement (.arm p k w) := by
  intro h q t e
  obtain ⟨rfl, rfl⟩ := presents e
  have h : (bit w 0) = true := h
  rw [show fixedWord 1 0 w = w from fixedWord_1_0 h, ofTxn_writeTo]
  show (if bit w 0 then some (Instr.arm p k w) else if bit w 1 then some (Instr.stop p k w) else if bit w 8 then some (Instr.clrCmdErr p k w) else if bit w 9 then some (Instr.clrLate p k w) else if bit w 10 then some (Instr.clrOverlap p k w) else if bit w 11 then some (Instr.clrAckOverrun p k w) else none).getD _ = _
  simp [h]

theorem stop (p : Sender) (k : BitVec 2) (w : Word) : Statement (.stop p k w) := by
  intro h q t e
  obtain ⟨rfl, rfl⟩ := presents e
  have h : (bit w 1 && !bit w 0) = true := h
  simp only [Bool.and_eq_true, Bool.not_eq_true'] at h
  rw [show fixedWord 2 1 w = w from fixedWord_2_1 h.1 h.2, ofTxn_writeTo]
  show (if bit w 0 then some (Instr.arm p k w) else if bit w 1 then some (Instr.stop p k w) else if bit w 8 then some (Instr.clrCmdErr p k w) else if bit w 9 then some (Instr.clrLate p k w) else if bit w 10 then some (Instr.clrOverlap p k w) else if bit w 11 then some (Instr.clrAckOverrun p k w) else none).getD _ = _
  simp [h]

theorem clrCmdErr (p : Sender) (k : BitVec 2) (w : Word) : Statement (.clrCmdErr p k w) := by
  intro h q t e
  obtain ⟨rfl, rfl⟩ := presents e
  have h : (bit w 8 && !bit w 0 && !bit w 1) = true := h
  simp only [Bool.and_eq_true, Bool.not_eq_true'] at h
  rw [show fixedWord 0x100 0x003 w = w from fixedWord_x100_x003 h.1.1 h.1.2 h.2, ofTxn_writeTo]
  show (if bit w 0 then some (Instr.arm p k w) else if bit w 1 then some (Instr.stop p k w) else if bit w 8 then some (Instr.clrCmdErr p k w) else if bit w 9 then some (Instr.clrLate p k w) else if bit w 10 then some (Instr.clrOverlap p k w) else if bit w 11 then some (Instr.clrAckOverrun p k w) else none).getD _ = _
  simp [h]

theorem clrLate (p : Sender) (k : BitVec 2) (w : Word) : Statement (.clrLate p k w) := by
  intro h q t e
  obtain ⟨rfl, rfl⟩ := presents e
  have h : (bit w 9 && !bit w 0 && !bit w 1 && !bit w 8) = true := h
  simp only [Bool.and_eq_true, Bool.not_eq_true'] at h
  rw [show fixedWord 0x200 0x103 w = w from fixedWord_x200_x103 h.1.1.1 h.1.1.2 h.1.2 h.2, ofTxn_writeTo]
  show (if bit w 0 then some (Instr.arm p k w) else if bit w 1 then some (Instr.stop p k w) else if bit w 8 then some (Instr.clrCmdErr p k w) else if bit w 9 then some (Instr.clrLate p k w) else if bit w 10 then some (Instr.clrOverlap p k w) else if bit w 11 then some (Instr.clrAckOverrun p k w) else none).getD _ = _
  simp [h]

theorem clrOverlap (p : Sender) (k : BitVec 2) (w : Word) : Statement (.clrOverlap p k w) := by
  intro h q t e
  obtain ⟨rfl, rfl⟩ := presents e
  have h : (bit w 10 && !bit w 0 && !bit w 1 && !bit w 8 && !bit w 9) = true := h
  simp only [Bool.and_eq_true, Bool.not_eq_true'] at h
  rw [show fixedWord 0x400 0x303 w = w from fixedWord_x400_x303 h.1.1.1.1 h.1.1.1.2 h.1.1.2 h.1.2 h.2, ofTxn_writeTo]
  show (if bit w 0 then some (Instr.arm p k w) else if bit w 1 then some (Instr.stop p k w) else if bit w 8 then some (Instr.clrCmdErr p k w) else if bit w 9 then some (Instr.clrLate p k w) else if bit w 10 then some (Instr.clrOverlap p k w) else if bit w 11 then some (Instr.clrAckOverrun p k w) else none).getD _ = _
  simp [h]

theorem clrAckOverrun (p : Sender) (k : BitVec 2) (w : Word) : Statement (.clrAckOverrun p k w) := by
  intro h q t e
  obtain ⟨rfl, rfl⟩ := presents e
  have h : (bit w 11 && !bit w 0 && !bit w 1 && !bit w 8 && !bit w 9 && !bit w 10) = true := h
  simp only [Bool.and_eq_true, Bool.not_eq_true'] at h
  rw [show fixedWord 0x800 0x703 w = w from fixedWord_x800_x703 h.1.1.1.1.1 h.1.1.1.1.2 h.1.1.1.2 h.1.1.2 h.1.2 h.2, ofTxn_writeTo]
  show (if bit w 0 then some (Instr.arm p k w) else if bit w 1 then some (Instr.stop p k w) else if bit w 8 then some (Instr.clrCmdErr p k w) else if bit w 9 then some (Instr.clrLate p k w) else if bit w 10 then some (Instr.clrOverlap p k w) else if bit w 11 then some (Instr.clrAckOverrun p k w) else none).getD _ = _
  simp [h]

theorem cadAck (p : Sender) (k : BitVec 2) (w : Word) : Statement (.cadAck p k w) := by
  intro h q t e
  obtain ⟨rfl, rfl⟩ := presents e
  rw [ofTxn_writeTo]; rfl

theorem cutoffDetection : Statement (.cutoffDetection) := by
  intro _ p t h; cases (show none = some (p, t) from h)

theorem soft (p : Sender) (w : Word) : Statement (.soft p w) := by
  intro h q t e
  obtain ⟨rfl, rfl⟩ := presents e
  have h : (bit w 0) = true := h
  rw [show fixedWord 1 0 w = w from fixedWord_1_0 h, ofTxn_writeTo]
  show (if bit w 0 then some (Instr.soft p w) else none).getD _ = _
  simp [h]

theorem clear (p : Sender) (w : Word) : Statement (.clear p w) := by
  intro h q t e
  obtain ⟨rfl, rfl⟩ := presents e
  have h : (bit w 1) = true := h
  rw [show fixedWord 2 0 w = w from fixedWord_2_0 h, ofTxn_writeTo]
  show (if bit w 1 then some (Instr.clear p w) else some (Instr.cutoffControlWrite p w)).getD _ = _
  simp [h]

theorem cutoffControlWrite (p : Sender) (w : Word) : Statement (.cutoffControlWrite p w) := by
  intro h q t e
  obtain ⟨rfl, rfl⟩ := presents e
  have h : (!bit w 1) = true := h
  simp only [Bool.not_eq_true'] at h
  rw [show fixedWord 0 2 w = w from fixedWord_0_2 h, ofTxn_writeTo]
  show (if bit w 1 then some (Instr.clear p w) else some (Instr.cutoffControlWrite p w)).getD _ = _
  simp [h]

theorem capConfigWrite (p : Sender) (k : BitVec 2) (w : Word) : Statement (.capConfigWrite p k w) := by
  intro h q t e
  obtain ⟨rfl, rfl⟩ := presents e
  rw [ofTxn_writeTo]; rfl

theorem captureEdge (k : BitVec 2) (e : PinEdge) : Statement (.captureEdge k e) := by
  intro _ p t h; cases (show none = some (p, t) from h)

theorem capTimeLoRead (p : Sender) (k : BitVec 2) : Statement (.capTimeLoRead p k) := by
  intro h q t e
  obtain ⟨rfl, rfl⟩ := presents e
  rw [ofTxn_readOf]; rfl

theorem liveLimitWrite (p : Sender) (y : Port) (w : Word) : Statement (.liveLimitWrite p y w) := by
  intro h q t e
  obtain ⟨rfl, rfl⟩ := presents e
  rw [ofTxn_writeTo]; rfl

theorem pinReset : Statement (.pinReset) := by
  intro _ p t h; cases (show none = some (p, t) from h)

theorem initialization : Statement (.initialization) := by
  intro _ p t h; cases (show none = some (p, t) from h)

theorem initializationEnd : Statement (.initializationEnd) := by
  intro _ p t h; cases (show none = some (p, t) from h)

theorem registerRead (p : Sender) (off : BitVec 12) (size : BitVec 2) : Statement (.registerRead p off size) := by
  intro h q t e
  obtain ⟨rfl, rfl⟩ := presents e
  have hs : ownRow p off size (.read) = none := Option.isNone_iff_eq_none.mp h
  simp [Instr.ofTxn, hs]

theorem cutoffPinLevelChange (level : PinLevel) : Statement (.cutoffPinLevelChange level) := by
  intro _ p t h; cases (show none = some (p, t) from h)

theorem unmatchedEdge (k : BitVec 2) (e : PinEdge) : Statement (.unmatchedEdge k e) := by
  intro _ p t h; cases (show none = some (p, t) from h)

end Sys2Proof.Laws.RoundTrip
end

