-- ==== Sys2Proof/Tests/Slice0.lean ====
section
/-! SUPPORT. Tests: the refusals of WellFormed, the classification of transactions written out from the register map, and
one step of each command on a small state. Expected values come from the manual's worked examples and tables, named in each
section. -/

namespace Sys2Proof.Tests

open Sys2Proof.Machine

/-! ## Helpers -/

/-- The part just after reset and initialization, in operation. -/
def run : State := { State.reset with phase := .run }

/-- The state a command leads to. -/
def after (c : Instr) (s : State) : State :=
  match exec c s with
  | .next t => t
  | _ => s

/-- The transaction of port `x`, alone, at the port address `a`. -/
def txn (x : Port) (a : Nat) (size : BitVec 2) (op : BusOp) : Instr :=
  Instr.ofTxn (solo x) { addr := BitVec.ofNat 24 a, size := size, op := op }

/-- The aligned 4-byte write of `w`. -/
def wr (x : Port) (a : Nat) (w : Word) : Instr := txn x a 2 (.write w)

/-- The aligned 4-byte read. -/
def rd (x : Port) (a : Nat) : Instr := txn x a 2 .read

/-- The response that port `x`'s link carries: xRESP and xRDATA. -/
def answer (x : Port) (s : State) : Option (BitVec 2 × Word) :=
  match s.link x with
  | .taken r => some (r.resp.code, r.rdata)
  | _ => none

/-- Both transactions acknowledged. -/
def freeLinks (s : State) : State := { s with links := { a := .free, b := .free } }

/-! ## WellFormed refuses what a row is not -/

theorem test_wf_window :
    (Instr.unmappedAccess (solo .A) { addr := 0x100000, size := 2, op := .read }).wellFormed = false ∧
    (Instr.registerWrite (solo .A) 0x040 2 5).wellFormed = false ∧
    (Instr.registerRead (solo .A) 0x118 2).wellFormed = false := by decide
theorem test_wf_resets :
    (Instr.bridgeReset (solo .A) 2).wellFormed = false ∧
    (Instr.lock (solo .A) 3).wellFormed = false ∧
    (Instr.portReset (solo .A) 2).wellFormed = false ∧
    (Instr.rejoin (solo .A) 3).wellFormed = false := by decide
theorem test_wf_views :
    (Instr.singleInvalidation (solo .A) 0x80000001).wellFormed = false ∧
    (Instr.invalidateAll (solo .A) 5).wellFormed = false := by decide
theorem test_wf_conduits :
    (Instr.conduitEnable (solo .A) 2 0).wellFormed = false ∧
    (Instr.conduitDisable (solo .A) 2 1).wellFormed = false ∧
    (Instr.openWrite (solo .A) 2).wellFormed = false ∧
    (Instr.commit (solo .A) 1).wellFormed = false ∧
    (Instr.abandon (solo .A) 1).wellFormed = false ∧
    (Instr.openRead (solo .A) 1).wellFormed = false ∧
    (Instr.conduitRelease (solo .A) 6).wellFormed = false ∧
    (Instr.returnSlot (solo .A) 5).wellFormed = false ∧
    (Instr.badOp (solo .A) 6).wellFormed = false := by decide
theorem test_wf_tokens :
    (Instr.cancel (solo .A) 1).wellFormed = false ∧
    (Instr.acquire (solo .A) 2).wellFormed = false ∧
    (Instr.tokenRelease (solo .A) 3).wellFormed = false ∧
    (Instr.forceRelease (solo .A) 0).wellFormed = false := by decide
theorem test_wf_tiers :
    (Instr.softSet (solo .A) 0xF01F).wellFormed = false ∧
    (Instr.softClr (solo .A) 0x1100).wellFormed = false := by decide
theorem test_wf_timebase :
    (Instr.load (solo .A) 2).wellFormed = false ∧
    (Instr.clrRefused (solo .A) 3).wellFormed = false := by decide
theorem test_wf_cadences :
    (Instr.arm (solo .A) 0 2).wellFormed = false ∧
    (Instr.stop (solo .A) 0 3).wellFormed = false ∧
    (Instr.clrCmdErr (solo .A) 0 0x101).wellFormed = false ∧
    (Instr.clrLate (solo .A) 0 0x300).wellFormed = false ∧
    (Instr.clrOverlap (solo .A) 0 0x600).wellFormed = false ∧
    (Instr.clrAckOverrun (solo .A) 0 0xC00).wellFormed = false := by decide
theorem test_wf_cutoff :
    (Instr.soft (solo .A) 2).wellFormed = false ∧
    (Instr.clear (solo .A) 1).wellFormed = false ∧
    (Instr.cutoffControlWrite (solo .A) 2).wellFormed = false := by decide

/-! ## Transactions are the commands their addresses name (Tables 1.2 and 1.3, offsets written out) -/

theorem test_row_lock : wr .A 0x008 2 = .lock (solo .A) 2 := by decide
theorem test_row_view_access : rd .A 0x103004 = .viewAccess (solo .A) 0x03004 2 .read := by decide
theorem test_row_unmapped : rd .B 0x001000 = .unmappedAccess (solo .B) { addr := 0x001000, size := 2, op := .read } := by decide
theorem test_row_conduit_config : wr .A 0x440 0x36 = .conduitConfigWrite (solo .A) .mode 2 0x36 := by decide
theorem test_row_conduit_enable : wr .A 0x44C 1 = .conduitEnable (solo .A) 2 1 := by decide
theorem test_row_commit : wr .A 0x200 0x3002 = .commit (solo .A) 0x3002 := by decide
theorem test_row_acquire : wr .B 0x1C0 0x31 = .acquire (solo .B) 0x31 := by decide
theorem test_row_claim : rd .A 0x118 = .claim (solo .A) := by decide
theorem test_row_arm : wr .A 0x75C 1 = .arm (solo .A) 1 1 := by decide
theorem test_row_cap_config : wr .A 0x840 0x21 = .capConfigWrite (solo .A) 2 0x21 := by decide
theorem test_row_cap_time_lo : rd .B 0x848 = .capTimeLoRead (solo .B) 2 := by decide
theorem test_row_live_limit : wr .A 0x014 4 = .liveLimitWrite (solo .A) .B 4 := by decide
theorem test_row_narrow_claim : txn .A 0x118 1 .read = .registerRead (solo .A) 0x118 1 := by decide
theorem test_row_cad_status : rd .A 0x760 = .registerRead (solo .A) 0x760 2 := by decide
theorem test_no_table_bits : decodeTableWord 32 0 = none := rfl

/-! ## Registers and access checks (section 1.6's example, Table 1.3) -/

theorem test_ident : answer .B (after (rd .B 0x000) run) = some (0, 0x00566002) := by decide
theorem test_status_self : answer .B (after (rd .B 0x004) run) = some (0, 0xA) := by decide
theorem test_init_status : answer .A (after (rd .A 0x004) { State.reset with phase := .init 5 }) = some (0, 1) := by decide
theorem test_init_refuses : answer .A (after (rd .A 0x018) { State.reset with phase := .init 5 }) = some (2, 0) := by decide
theorem test_misaligned : regRead (after (txn .A 0x000001 1 .read) run) .A .faultInfo = 0x25 := by decide
theorem test_unmapped : regRead (after (rd .A 0x200000) run) .A .faultInfo = 0x19 := by decide
theorem test_narrow : answer .A (after (txn .A 0x4A0 1 (.write 0)) run) = some (2, 0) := by decide
theorem test_privilege : regRead (after (wr .B 0x4A0 0) run) .B .faultInfo = 0x5B := by decide
theorem test_locked : regRead (freeLinks (after (wr .A 0x4A0 0) (after (wr .A 0x008 2) run))) .A .faultInfo = 0x6B := by decide
theorem test_read_only_ignored : answer .B (after (wr .B 0x4B0 7) run) = some (0, 0) := by decide
theorem test_lock_reads : regRead (after (wr .A 0x008 2) run) .B .bridgeStatus = 0xE := by decide

/-! ## Views (section 2.9's example) -/

/-- Port A's table at 03000h, with `w` in page 0's entry. -/
def viewed (w : Word) : State :=
  { run.mapView .A (fun v => { v with base := 3, enable := true }) with
    store := Memory.storeWord [] 0x0C00 w }

theorem test_probe : regRead (after (wr .A 0x04C 0x80100000) (viewed 0x610)) .A .probeResult = 0x800010C0 := by decide
theorem test_probe_phys : regRead (after (wr .A 0x04C 0x80100000) (viewed 0x610)) .A .probePhys = 0x4000 := by decide
theorem test_walk_touches : Memory.word (after (wr .A 0x100000 0x1234) (viewed 0x610)).store 0x0C00 = 0xE10 := by decide
theorem test_walk_writes : Memory.word (after (wr .A 0x100000 0x1234) (viewed 0x610)).store 0x1000 = 0x1234 := by decide
theorem test_guarded : regRead (after (wr .A 0x100000 1) (viewed 0xC14)) .A .denyInfo = 0x23B := by decide
theorem test_view_off : regRead (after (rd .B 0x100000) run) .B .faultInfo = 0x99 := by decide
theorem test_byte_lane : answer .A (after (txn .A 0x100001 0 .read)
    { viewed 0x610 with store := Memory.storeWord (Memory.storeWord [] 0x0C00 0xE10) 0x1000 0x1234 })
    = some (0, 0x1200) := by decide
theorem test_view_control_sweeps : ((after (wr .A 0x044 3) run).bank .A).view.sweep = some 0 := by decide
theorem test_view_base : regRead (after (wr .A 0x040 0xFF) run) .A .viewBase = 0x3F := by decide
theorem test_invalidate_all : regRead (after (wr .B 0x048 0x80000000) run) .B .cacheStatus = 1 := by decide
theorem test_single_invalidation :
    ((after (wr .A 0x048 5) (run.mapView .A fun v =>
      { v with cache := v.cache.set 5 (some { tag := 0, kind := false, access := 3, target := 20 }) })).bank
      .A).view.cache.get 5 = none := by decide
theorem test_sweep_progress : regRead (after (.sweepProgress .A) (run.mapView .A fun v => { v with sweep := some 62 })) .A
    .cacheStatus = 0x3F01 := by decide
theorem test_sweep_end : regRead (after (.sweepEnd .A) (run.mapView .A fun v => { v with sweep := some 63 })) .A
    .cacheStatus = 0 := by decide

/-- R44: two rows are two clocks, so entry 5 is the third to go and its index is shown in between. -/
theorem test_sweep_one_per_clock : regRead (after (.sweepProgress .A) (after (.sweepProgress .A)
    (run.mapView .A fun v => { v with sweep := some 4 }))) .A .cacheStatus = 0x601 := by decide

/-! ## Records (chapter 3) -/

theorem test_deny_release : regRead (freeLinks (after (wr .A 0x08C 0) (after (wr .A 0x100000 1) (viewed 0xC14)))) .A
    .denyInfo = 0 := by decide
theorem test_fault_release : regRead (freeLinks (after (wr .A 0x09C 0) (after (rd .A 0x200000) run))) .A .faultInfo = 0 := by
  decide
theorem test_counter_clear : regRead (freeLinks (after (wr .A 0x0A4 9) (after (rd .A 0x200000) run))) .A (.counter .fault) = 0 := by
  decide

/-! ## Conduits (sections 4.7, 5.11) -/

/-- Conduit 0, HANDOFF from A to B with 64-byte slots, enabled, changed by `f`. -/
def handoff (f : Conduit → Conduit) : State :=
  run.mapConduit 0 fun c => f { c with size := 3, enabled := true }

theorem test_cfg_mode : regRead (after (wr .A 0x440 0x36) run) .B (.cfg .mode 2) = 0x36 := by decide
theorem test_out_of_store : regRead (after (wr .A 0x44C 1) (run.mapConduit 2 fun c =>
    { c with mode := 2, depth := 3, size := 15, base := 0x3FC1 })) .A (.cfgStatus 2) = 0xC := by decide
theorem test_enable : regRead (after (wr .A 0x44C 1) (run.mapConduit 2 fun c =>
    { c with mode := 2, depth := 3, size := 15, base := 0x2000 })) .A (.cfgOccupancy 2) = 0x00FFF000 := by decide
theorem test_disable_notes : regRead (after (wr .A 0x40C 0) (handoff fun c => { c with filling := some 0 })) .B
    .resetNotice = 1 := by decide
theorem test_open_write : regRead (after (wr .A 0x200 0x1) (handoff id)) .A .conduitResult = 0x101 := by decide
theorem test_open_write_info : regRead (after (wr .A 0x200 0x1) (handoff id)) .A .slotInfoSeq = 0x00400000 := by decide
theorem test_commit : regRead (after (wr .A 0x200 0x3002) (handoff fun c => { c with filling := some 0 })) .A
    .slotInfoSeq = 0x00300001 := by decide
theorem test_commit_notice : regRead (after (wr .A 0x200 0x3002) (handoff fun c => { c with filling := some 0 })) .B
    .commitNotice = 1 := by decide
theorem test_full : regRead (after (wr .A 0x200 0x1) (handoff fun c => { c with visible := [0] })) .A .conduitResult
    = 0x104 := by decide
theorem test_abandon : regRead (after (wr .A 0x200 0x3) (handoff fun c => { c with filling := some 0 })) .A .conduitResult
    = 0x301 := by decide
theorem test_open_read : regRead (after (wr .B 0x200 0x4) (handoff fun c => { c with visible := [0] })) .B .conduitResult
    = 0x401 := by decide
theorem test_release_drain : regRead (after (wr .B 0x200 0x5) (handoff fun c => { c with reading := some 0 })) .A
    .drainNotice = 1 := by decide
theorem test_return : (after (wr .B 0x200 0x6) (handoff fun c => { c with reading := some 0 })).conduit 0 =
    (handoff fun c => { c with visible := [0] }).conduit 0 := by decide
theorem test_bad_op : regRead (after (wr .A 0x200 0x27) run) .A .conduitResult = 0x72B := by decide
theorem test_refused_counted : regRead (after (wr .A 0x200 0x25) run) .A (.counter .refuse) = 1 := by decide
theorem test_commit_notice_clear : regRead (after (wr .B 0x214 1) (run.mapConduitPort .B fun p =>
    { p with commitNotice := 3 })) .B .commitNotice = 2 := by decide
theorem test_drain_notice_clear : regRead (after (wr .B 0x218 1) (run.mapConduitPort .B fun p =>
    { p with drainNotice := 3 })) .B .drainNotice = 2 := by decide
theorem test_reset_notice_clear : regRead (after (wr .B 0x21C 1) (run.mapConduitPort .B fun p =>
    { p with resetNotice := 3 })) .B .resetNotice = 2 := by decide

/-! ## Tokens and doorbells (section 6.8) -/

/-- Token 3 held by `y`, with the waiting flags `a` and `b`. -/
def token3 (y : Option Port) (a b : Bool) : State := run.setToken 3 { holder := y, wait := { a := a, b := b } }

theorem test_acquire : regRead (after (wr .A 0x1C0 0x31) run) .A .tokenResult = 0x131 := by decide
theorem test_acquire_waits : regRead (after (wr .B 0x1C0 0x31) (token3 (some .A) false false)) .B .tokenWait = 8 := by decide
theorem test_token_release : regRead (after (wr .A 0x1C0 0x32) (token3 (some .A) false true)) .A .tokenResult = 0x233 := by
  decide
theorem test_token_hand_over : regRead (after (wr .A 0x1C0 0x32) (token3 (some .A) false true)) .B .tokenState = 0x80 := by
  decide
theorem test_not_holder : regRead (after (wr .A 0x1C0 0x32) (token3 (some .B) false false)) .A .tokenResult = 0x237 := by
  decide
theorem test_not_waiting : regRead (after (wr .A 0x1C0 0x30) (token3 (some .A) false false)) .A .tokenResult = 0x38 := by
  decide
theorem test_cancel : regRead (after (wr .B 0x1C0 0x30) (token3 (some .A) false true)) .B .tokenWait = 0 := by decide
theorem test_force_release : regRead (after (wr .A 0x1C0 0x33) (token3 (some .B) true false)) .A .tokenNotice = 8 := by decide
theorem test_token_notice_clear : regRead (after (wr .A 0x1D0 8) (run.mapTokenPort .A fun p => { p with notice := 0xC })) .A
    .tokenNotice = 4 := by decide
theorem test_ring : regRead (after (wr .B 0x180 0x8) run) .A .doorbellIn = 8 := by decide
theorem test_doorbell_clear : regRead (after (wr .A 0x184 0x8) (run.mapBells .A fun b => { b with incoming := 0xC })) .A
    .doorbellIn = 4 := by decide

/-! ## Event units (chapter 7) -/

/-- Port A with line 6 routed to tier 3 and bell 0 rung and unmasked. -/
def rung : State :=
  (run.mapBells .A fun _ => { incoming := 1, mask := 1 }).mapEvents .A fun e =>
    { e with lineEnable := 0xC7, routeLo := 0x23000311, ge := true, tierEnable := 15 }

theorem test_claim : answer .A (after (rd .A 0x118) rung) = some (0, 0x603) := by decide
theorem test_claim_in_service : regRead (after (rd .A 0x118) rung) .A .tierStatus = 0x40 := by decide
theorem test_claim_soft : answer .A (after (rd .A 0x118) (rung.mapEvents .A fun e => { e with soft := 8, lineEnable := 0 }))
    = some (0, 0x1004) := by decide
theorem test_dismiss : regRead (after (wr .A 0x11C 0) (rung.mapEvents .A fun e => { e with inService := 12 })) .A .tierStatus
    = 0x80 := by decide
theorem test_illegal_route : regRead (after (wr .A 0x10C 0x5F010234) run) .A .routeHi = 0x00010234 := by decide
theorem test_soft_set_wins : regRead (after (wr .A 0x110 0x811F) run) .A .tierStatus = 1 := by decide
theorem test_soft_clr : regRead (after (wr .A 0x110 0x801F) (run.mapEvents .A fun e => { e with soft := 9 })) .A .tierStatus
    = 1 := by decide
theorem test_line_pending_clear : regRead (after (wr .A 0x100 0x2FFF) (run.mapEvents .A fun e => { e with latches := 0x3000 }))
    .A .linePending = 0x1000 := by decide

end Sys2Proof.Tests
end

