-- ==== Sys2Proof/Tests/Timed.lean ====
section
/-! SUPPORT. Tests, continued: the blocks that the core clock drives, and the resets. Expected values come from the manual's
worked examples and tables, named in each section. -/

namespace Sys2Proof.Tests

open Sys2Proof.Machine

/-! ## Timebase and cadences (section 8.10) -/

/-- TIME `t`, and cadence 1 changed by `f` with START 5200, PERIOD 1000, WIDTH 100, OUT_EN 1. -/
def timed (t : Time) (f : Cadence → Cadence) : State :=
  { run with timebase := { run.timebase with time := t } }.mapCadence 1 fun c =>
    f { c with outEn := true, start := 5200, period := 1000, width := 100 }

theorem test_time_lo : answer .A (after (rd .A 0x600) (timed 0x000200001388 id)) = some (0, 0x1388) := by decide
theorem test_time_shadow : regRead (after (rd .A 0x600) (timed 0x000200001388 id)) .A .timeHi = 2 := by decide
theorem test_prescale : regRead (after (wr .A 0x610 0x1FF) run) .B .prescale = 0xFF := by decide
theorem test_load : regRead (after (wr .A 0x614 1) run) .A .timeStatus = 1 := by decide
theorem test_load_refused : regRead (after (wr .A 0x614 1) (timed 0 fun c => { c with state := .armed })) .A .timeStatus = 2 := by
  decide
theorem test_clr_refused : regRead (after (wr .A 0x614 2) { run with timebase := { run.timebase with loadRefused := true } })
    .A .timeStatus = 0 := by decide
theorem test_tick_wraps : (after .tick (timed 0xFFFFFFFFFFFF id)).time = 0 := by decide
theorem test_load_applies : (after .timeLoadApply { run with timebase := { run.timebase with pendingLoad := some 77 } }).time
    = 77 := by decide
theorem test_arm : regRead (after (wr .A 0x75C 1) (timed 5010 id)) .A (.cadNextLo 1) = 0x1450 := by decide
theorem test_arm_late : regRead (after (wr .A 0x75C 1) (timed 7000 fun c =>
    { c with state := .stopped, ticks := 3, overlap := true, periodStaged := true, widthStaged := true })) .A
    (.cadStatus 1) = 0x219 := by decide
theorem test_cadence_tick : regRead (after (.cadenceTick 1) (timed 5199 fun c => { c with state := .armed, next := 5200 })) .A
    (.cadStatus 1) = 0x00010006 := by decide +kernel
theorem test_cadence_overlap : regRead (after (.cadenceTick 1) (timed 6699 fun c =>
    { c with state := .running, next := 6700, ticks := 2, pulse := .counted 100 })) .A (.cadStatus 1) = 0x00030406 := by
  decide +kernel
theorem test_stop : regRead (after (wr .A 0x75C 2) (timed 6800 fun c =>
    { c with state := .running, next := 7200, ticks := 3, pulse := .counted 500, overlap := true })) .A (.cadStatus 1)
    = 0x00030403 := by decide +kernel
theorem test_pulse_end : regRead (after (.pulseEnd 1) (timed 5299 fun c =>
    { c with state := .running, next := 6200, ticks := 1, pulse := .counted 1 })) .A (.cadStatus 1) = 0x00010002 := by decide
theorem test_period_stage : regRead (after (wr .A 0x750 0x1F4) (timed 5300 id)) .A (.cadStatus 1) = 8 := by decide
theorem test_width_stage : regRead (after (wr .A 0x758 0x258) (timed 5300 id)) .A (.cadWidthStage 1) = 0x258 := by decide
theorem test_clr_late : regRead (after (wr .A 0x75C 0x200) (timed 7001 fun c =>
    { c with state := .running, ticks := 1, late := true, widthStaged := true, pulse := .counted 50 })) .A (.cadStatus 1)
    = 0x00010016 := by decide
theorem test_clr_cmd_err : regRead (after (wr .A 0x75C 0x100) (timed 0 fun c => { c with cmdErr := true, late := true })) .A
    (.cadStatus 1) = 0x200 := by decide
theorem test_clr_overlap : regRead (after (wr .A 0x75C 0x400) (timed 0 fun c => { c with overlap := true })) .A (.cadStatus 1)
    = 0 := by decide
theorem test_clr_ack_overrun : regRead (after (wr .A 0x75C 0x800) (timed 0 fun c => { c with ackOverrun := true })) .A
    (.cadStatus 1) = 0 := by decide
theorem test_cad_ack : regRead (after (wr .B 0x76C 0) (timed 0 fun c => { c with pulse := .acknowledged })) .A (.cadStatus 1)
    = 0 := by decide

/-! ## Cutoff (section 8.8) -/

theorem test_soft_cutoff : regRead (after (wr .B 0x904 1) run) .A .cutoffStatus = 0x15 := by decide
theorem test_detection : regRead (after .cutoffDetection
    { run with pins := { run.pins with cutoffN := false }, cutoff := { run.cutoff with pinEn := true, sample := false } }) .A
    .cutoffStatus = 0x3 := by decide
theorem test_clear_refused : regRead (after (wr .A 0x900 3)
    { run with cutoff := { run.cutoff with active := true, cause := .pin, sample := false } }) .A .cutoffStatus = 0xB := by
  decide
theorem test_clear : regRead (after (wr .A 0x900 2)
    { run with cutoff := { run.cutoff with active := true, cause := .pin, sample := false } }) .A .cutoffStatus = 0x2 := by
  decide
theorem test_pin_en : regRead (after (wr .A 0x900 1) run) .B .cutoffControl = 1 := by decide
theorem test_pin_level : regRead (after (.cutoffPinLevelChange ⟨false, run.pins⟩) run) .A .cutoffStatus = 0 := by decide

/-- R152: one low sample enters nothing, the next low one enters with CAUSE PIN. -/
theorem test_one_low_sample : regRead (after (.cutoffPinLevelChange ⟨false, run.pins⟩)
    { run with cutoff := { run.cutoff with pinEn := true } }) .A .cutoffStatus = 0 := by decide
theorem test_two_low_samples : regRead (after .cutoffDetection (after (.cutoffPinLevelChange ⟨false, run.pins⟩)
    { run with cutoff := { run.cutoff with pinEn := true } })) .A .cutoffStatus = 3 := by decide

/-! ## Captures (section 9.7) -/

/-- Channel 2 from its own pin, rising, SINGLE, owned by B, changed by `f`, at TIME 1_0000_0100h. -/
def armedPin (f : Capture → Capture) : State :=
  { run with timebase := { run.timebase with time := 0x000100000100 } }.mapCapture 2 fun c =>
    f { c with source := 1, owner := .B, sample := some false }

theorem test_cap_config : regRead (after (wr .A 0x800 0x512) run) .A (.capConfig 0) = 0x512 := by decide
theorem test_capture_edge : regRead (after (.captureEdge 2 ⟨.rising, run.pins⟩) (armedPin id)) .A (.capInfo 2) = 3 := by decide
/-- R156: two edges on one pin lie at two instants; the second replaces the first in a CONTINUOUS record. -/
theorem test_two_edges : ((after (.captureEdge 2 ⟨.falling, run.pins⟩) (after (.captureEdge 2 ⟨.rising, run.pins⟩)
    (armedPin fun c => { c with edge := 2, mode := true }))).capture 2).time = 0x000100000102 := by decide
theorem test_capture_overrun : regRead (after (.captureEdge 2 ⟨.rising, run.pins⟩) (armedPin fun c =>
    { c with unread := true, cause := .rising, time := 7 })) .A (.capInfo 2) = 0xB := by decide
theorem test_unmatched_edge : regRead (after (.unmatchedEdge 2 ⟨.falling, run.pins⟩) (armedPin fun c => { c with sample := some true })) .A
    (.capInfo 2) = 0 := by decide
theorem test_owner_consumes : regRead (after (rd .B 0x848) (armedPin fun c =>
    { c with unread := true, overrun := true, cause := .rising, time := 0x000100000100 })) .A (.capInfo 2) = 2 := by decide
theorem test_cap_shadow : regRead (after (rd .A 0x848) (armedPin fun c =>
    { c with unread := true, overrun := true, cause := .rising, time := 0x000100000100 })) .A (.capTimeHi 2) = 1 := by decide

/-! ## Liveness (section 10.7) -/

/-- Port B's monitor with limit 4, changed by `f`, and token 7 held by B while A waits. -/
def silent (f : Monitor → Monitor) : State :=
  (run.mapMonitor .B fun m => f { m with limit := 4 }).setToken 7 { holder := some .B, wait := { a := true, b := false } }

theorem test_live_limit : regRead (after (wr .A 0x014 0x4) (silent fun m => { m with count := 3 })) .A (.liveLimit .B) = 4 := by
  decide
theorem test_live_warn : regRead (after (.liveWarn .B) (silent fun m => { m with count := 1, phase := 255 })) .B .linePending = 0x2000 := by decide
theorem test_expiry : regRead (after (.expiry .B) (silent fun m => { m with count := 3, phase := 255, warned := true })) .A .liveStatus
    = 0x700 := by decide +kernel
theorem test_expiry_tokens : regRead (after (.expiry .B) (silent fun m => { m with count := 3, phase := 255, warned := true })) .A .tokenState
    = 0x4000 := by decide +kernel
theorem test_rejoin : regRead (after (wr .B 0x00C 2) (silent fun m =>
    { m with count := 4, warned := true, presence := .absent, lastCause := .expired })) .A .liveStatus = 0x400 := by decide

/-! ## Resets (chapter 11) -/

theorem test_bridge_reset : regRead (after (wr .A 0x008 1) (handoff fun c => { c with filling := some 0 })) .B .resetNotice = 1 := by
  decide
theorem test_port_reset : regRead (after (wr .B 0x00C 1) (silent id)) .A .liveStatus = 0x800 := by decide +kernel
theorem test_pin_reset : (after .pinReset (handoff id)).conduit 0 = Conduit.reset := by decide
theorem test_initialization : (after .initialization State.reset).phase = .init 1 := by decide
theorem test_initialization_end : regRead (after .initializationEnd { State.reset with phase := .init 65536 }) .A
    .bridgeStatus = 2 := by decide

end Sys2Proof.Tests
end

