-- ==== Sys2Proof/Tests/Witnesses.lean ====
section
/-! SUPPORT. For every statement of Obligations.lean with hypotheses, a concrete state and operands that meet them, clause by
clause, at the boundary values of their ranges. -/

namespace Sys2Proof.Tests

open Sys2Proof.Machine

theorem takes_run (x : Port) : Takes x run := ⟨rfl, by cases x <;> decide⟩

theorem witness_FrontCommandRuns : { run with pending := [.tick, .pinReset] }.pending = .tick :: [.pinReset] := rfl

theorem witness_ClocksMoveTheHandshake :
    (State.reset.pending = [] ∧ State.reset.phase = .held) ∧
    ((run.setLink .A (.taken { resp := .okay, rdata := 5 })).phase = .run ∧
      (run.setLink .A (.taken { resp := .okay, rdata := 5 })).link .A = .taken { resp := .okay, rdata := 5 }) ∧
    (Instr.request (.claim (solo .A)) = some (solo .A, readOf .claim) ∧
      ready (solo .A) (run.setLink .A (.acking { resp := .okay, rdata := 5 })) = false) := by decide

theorem witness_TurnOrdersCollidingSteps :
    run.phase ≠ .held ∧ ready { port := .A, rival := some (readOf .ident) } run = true ∧
    Instr.request (.ring { port := .A, rival := some (readOf .ident) } 1)
      = some ({ port := .A, rival := some (readOf .ident) }, writeTo .doorbellOut 1) := by decide

/-- The same collision at the first clock of initialization. -/
theorem witness_TurnOrdersCollidingSteps_init :
    let s := { State.reset with phase := .init 1 }
    s.phase ≠ .held ∧ s.phase ≠ .run ∧ ready { port := .A, rival := some (readOf .ident) } s = true ∧
    Instr.request (.ring { port := .A, rival := some (readOf .ident) } 1)
      = some ({ port := .A, rival := some (readOf .ident) }, writeTo .doorbellOut 1) := by decide

theorem witness_EveryTransactionIsOneCommand :
    (Instr.ring (solo .A) 1).wellFormed = true ∧
    Instr.request (.ring (solo .A) 1) = some (solo .A, writeTo .doorbellOut 1) := by decide

theorem witness_RingSurvivesClearAtOneInstant :
    run.phase = .run ∧ ready { port := .A, rival := some (writeTo .doorbellOut 8) } run = true ∧
    run.banks.a.fresh.bell = 0 := by decide

theorem witness_EarlyAccessChecksFault_addresses :
    Takes .A run ∧ (3 : BitVec 2) = 3 ∧ (0x000FFF : PortAddr).toNat % 2 ≠ 0 ∧ (0x1FFFFE : PortAddr).toNat % 4 ≠ 0 ∧
    (aligned 0x001000 2 = true ∧ 0x1000 ≤ (0x001000 : PortAddr).toNat ∧ (0x001000 : PortAddr).toNat < 0x100000) ∧
    (aligned 0x0FFFFC 2 = true ∧ 0x1000 ≤ (0x0FFFFC : PortAddr).toNat ∧ (0x0FFFFC : PortAddr).toNat < 0x100000) ∧
    (aligned 0x200000 2 = true ∧ 0x200000 ≤ (0x200000 : PortAddr).toNat) :=
  ⟨takes_run .A, by decide⟩

theorem witness_EarlyAccessChecksFault_window :
    (0x118 : BitVec 12).toNat % 2 = 0 ∧ (0x01C : BitVec 12).toNat % 4 = 0 ∧ (∀ r : Reg, r.offset ≠ 0x01C) ∧
    (∀ r : Reg, r.offset ≠ 0xFFC) := by
  have none_at (o : BitVec 12) (e : Reg.ofOffset o = none) (r : Reg) : r.offset ≠ o := fun h => by
    have g := Reg.ofOffset_offset r
    rw [h, e] at g
    cases g
  exact ⟨by decide, by decide, none_at _ (by decide), none_at _ (by decide)⟩

theorem witness_PlainRegisterAccess :
    Takes .B run ∧ Reg.ident ≠ .claim ∧ Reg.ident ≠ .timeLo ∧ (∀ k, Reg.ident ≠ .capTimeLo k) ∧
    writerOf .claim = .readOnly ∧ writerOf (.capTimeLo 3) = .readOnly :=
  ⟨takes_run .B, by decide⟩

theorem witness_IdentAndStatusRead :
    Takes .A run ∧ { run with phase := .init 65535 }.phase = .init 65535 ∧
    ready (solo .A) { run with phase := .init 65535 } = true ∧ { run with phase := .init 65535 }.configLock = false :=
  ⟨takes_run .A, by decide⟩

theorem witness_OwnSettingsAreStored :
    Takes .B run ∧ (0x1F : Word).extractLsb' 8 8 = 0 ∧ (Instr.softSet (solo .B) 0x811F).wellFormed = true ∧
    (Instr.softClr (solo .B) 0x801F).wellFormed = true :=
  ⟨takes_run .B, by decide⟩

theorem witness_StewardSettingsAreStored : Takes .A run ∧ run.configLock = false := ⟨takes_run .A, rfl⟩

theorem witness_StewardRegistersRefusePortB : Takes .B run ∧ writerOf (.cfg .mode 15) = .steward ∧
    writerOf .cutoffControl = .steward :=
  ⟨takes_run .B, by decide⟩

theorem witness_LockedRegistersRefuseTheSteward :
    Takes .A { run with configLock := true } ∧ { run with configLock := true }.configLock = true ∧
    inLockedSet .prescale = true ∧ (1 : Word).getLsbD 0 ≠ { run with configLock := true }.cutoff.pinEn :=
  ⟨⟨rfl, by decide⟩, by decide⟩

theorem witness_EnabledConduitConfigIsBusy :
    Takes .A (handoff id) ∧ (handoff id).configLock = false ∧ ((handoff id).conduit 0).enabled = true :=
  ⟨⟨rfl, by decide⟩, by decide⟩

theorem witness_MemoryAccessTouchesItsBytes :
    Memory.wf [(5, 7), (262143, 1)] = true ∧ (0 : BitVec 2) ≠ 3 ∧ (2 : BitVec 2) ≠ 3 ∧
    (0x3FFFF : StoreAddr).toNat % 2 ^ (0 : BitVec 2).toNat = 0 ∧ (0x3FFFC : StoreAddr).toNat % 2 ^ (2 : BitVec 2).toNat = 0 := by
  decide

/-- Port A's view enabled in direct translation. -/
def direct : State := run.mapView .A fun v => { v with enable := true, direct := true }

theorem witness_DirectTranslationReachesTheFrame :
    (Takes .A run ∧ (run.bank .A).view.enable = false) ∧
    Takes .A direct ∧ aligned (viewAddr 0x3FFFC) 2 = true ∧ (direct.bank .A).view.enable = true ∧
    (direct.bank .A).view.direct = true ∧ direct.configLock = false ∧ (0x3FFFC : BitVec 20).toNat < 0x40000 :=
  ⟨⟨takes_run .A, by decide⟩, ⟨rfl, by decide⟩, by decide⟩

theorem witness_FirstDenyIsRecordedAndTheSecondEscalates :
    Takes .A direct ∧ aligned (viewAddr 0x40000) 2 = true ∧ 0x40000 ≤ (0x40000 : BitVec 20).toNat ∧
    (direct.bank .A).records.deny = none ∧
    ((freeLinks (after (wr .A 0x140000 1) direct)).bank .A).records.deny ≠ none ∧
    Takes .A (freeLinks (after (wr .A 0x140000 1) direct)) :=
  ⟨⟨rfl, by decide⟩, by decide, by decide, by decide, by decide, ⟨by decide, by decide⟩⟩

theorem viewed_misses (w : Word) (b : Bool) : CacheMisses ((viewed w).bank .A).view 0 b :=
  .inr fun _ h => by
    have e : ((viewed w).bank .A).view.cache.get ((0 : BitVec 10).extractLsb' 0 6) = none := by
      simp [viewed, run, State.reset, State.pinReset]; rfl
    rw [e] at h
    cases h

theorem witness_TableWalkReachesTheFrame :
    Takes .A (viewed 0x610) ∧ aligned (viewAddr (0#10 ++ 0#10)) 2 = true ∧
    ((viewed 0x610).bank .A).view.enable = true ∧ ((viewed 0x610).bank .A).view.direct = false ∧
    (Memory.word (viewed 0x610).store (((viewed 0x610).bank .A).view.base ++ 0#10) = 0x610) ∧
    (0x610 : Word).extractLsb' 12 20 = 0 ∧ (0x610 : Word).getLsbD 8 = false ∧
    CacheMisses ((viewed 0x610).bank .A).view 0 true ∧ CacheMisses ((viewed 0x610).bank .A).view 0 false ∧
    Permits ((0x610 : Word).extractLsb' 9 2) true ∧ Permits ((0x610 : Word).extractLsb' 9 2) false :=
  ⟨⟨rfl, by decide⟩, by decide, by decide, by decide, by decide, by decide, by decide,
    viewed_misses _ _, viewed_misses _ _, .inl (by decide), .inl (by decide)⟩

theorem witness_PageEntriesRefuseTheAccess :
    (Takes .A (viewed 0xC14) ∧ aligned (viewAddr (0#10 ++ 0#10)) 2 = true ∧ ((viewed 0xC14).bank .A).records.deny = none ∧
      CacheMisses ((viewed 0xC14).bank .A).view 0 true) ∧
    ((0xC14 : Word).extractLsb' 9 2 = 2 ∧ (0x214 : Word).extractLsb' 9 2 = 1 ∧ (0x014 : Word).extractLsb' 9 2 = 0 ∧
      (0x1614 : Word).extractLsb' 9 2 ≠ 0 ∧ (0x1614 : Word).extractLsb' 12 20 ≠ 0) ∧
    (let s := freeLinks (after (wr .A 0x100000 1) (viewed 0xC14))
     Takes .A s ∧ (s.bank .A).records.deny ≠ none) :=
  ⟨⟨⟨rfl, by decide⟩, by decide, by decide, viewed_misses _ _⟩, by decide, ⟨by decide, by decide⟩, by decide⟩

/-- Page 0 of port A cached with entry `e`. -/
def cachedAs (e : CacheEntry) (s : State) : State :=
  s.mapView .A fun v => { v with enable := true, cache := v.cache.set 0 (some e) }

/-- A plain entry of page 0 for frame 255, read and write. -/
def plainEntry : CacheEntry := { tag := 0, kind := false, access := 3, target := 255 }

theorem witness_CacheHitReachesTheFrame :
    Takes .A (cachedAs plainEntry run) ∧ aligned (viewAddr (0#10 ++ 0x3FC#10)) 2 = true ∧
    ((cachedAs plainEntry run).bank .A).view.enable = true ∧ ((cachedAs plainEntry run).bank .A).view.direct = false ∧
    ((cachedAs plainEntry run).bank .A).view.sweep = none ∧
    ((cachedAs plainEntry run).bank .A).view.cache.get ((0#10).extractLsb' 0 6) = some plainEntry ∧
    plainEntry.tag = (0#10).extractLsb' 6 4 ∧ plainEntry.kind = false ∧ Permits plainEntry.access true ∧
    Permits plainEntry.access false :=
  ⟨⟨rfl, by decide⟩, by decide, by decide, by decide, by decide, by decide, by decide, by decide, .inl (by decide),
    .inl (by decide)⟩

/-- An entry of page 0 for conduit 0. -/
def windowEntry : CacheEntry := { tag := 0, kind := true, access := 3, target := 0 }

theorem witness_ConduitWindowReachesTheOpenSlot :
    let s := cachedAs windowEntry (handoff fun c => { c with filling := some 0 })
    Takes .A s ∧ aligned (viewAddr (0#10 ++ 60#10)) 2 = true ∧ (s.bank .A).view.enable = true ∧
    (s.bank .A).view.direct = false ∧ Permits 3 true ∧ (s.bank .A).view.sweep = none ∧
    (s.bank .A).view.cache.get ((0#10).extractLsb' 0 6) = some windowEntry ∧ (s.bank .A).records.deny = none ∧
    (s.conduit 0).enabled = true ∧ s.isActive .A = true ∧ (s.conduit 0).filling = some 0 ∧ (s.conduit 0).producer = .A ∧
    ¬ (((s.conduit 0).size.toNat + 1) * 16 ≤ (60#10).toNat) ∧ ((s.conduit 0).size.toNat + 1) * 16 ≤ (64#10).toNat :=
  ⟨⟨rfl, by decide⟩, by decide, by decide, by decide, .inl rfl, by decide⟩

theorem witness_ConduitWindowReachesTheOpenSlot_walked :
    CacheMisses ((viewed 0x700).bank .A).view 0 true ∧ (0x700 : Word).extractLsb' 12 20 = 0 ∧
    (0x700 : Word).extractLsb' 4 4 = 0 ∧ (0x700 : Word).getLsbD 8 = true ∧ (0x700 : Word).extractLsb' 9 2 = 3 ∧
    Memory.word (viewed 0x700).store (((viewed 0x700).bank .A).view.base ++ 0#10) = 0x700 :=
  ⟨viewed_misses _ _, by decide⟩

theorem witness_ProbeForetellsTheAccess :
    (Takes .A (viewed 0x610) ∧ ((viewed 0x610).bank .A).view.enable = true ∧ ((viewed 0x610).bank .A).view.direct = false ∧
      CacheMisses ((viewed 0x610).bank .A).view 0 true) ∧
    (Takes .A direct ∧ (direct.bank .A).view.enable = true ∧ (direct.bank .A).view.direct = true ∧
      direct.configLock = false) ∧
    (let s := cachedAs windowEntry (handoff fun c => { c with filling := some 0 })
     Takes .A s ∧ (s.bank .A).view.enable = true ∧ (s.bank .A).view.sweep = none ∧
      (s.bank .A).view.cache.get ((0#10).extractLsb' 0 6) = some windowEntry ∧ windowEntry.tag = (0#10).extractLsb' 6 4 ∧
      Permits windowEntry.access true) ∧
    (let s := freeLinks (after (wr .A 0x140000 1) direct)
     Takes .A s ∧ (s.bank .A).records.deny ≠ none) :=
  ⟨⟨⟨rfl, by decide⟩, by decide, by decide, viewed_misses _ _⟩, ⟨⟨rfl, by decide⟩, by decide⟩,
    ⟨⟨rfl, by decide⟩, by decide, by decide, by decide, by decide, .inl rfl⟩, ⟨by decide, by decide⟩, by decide⟩

theorem witness_ProbeOutsideTheView :
    Takes .A run ∧ ¬ (0x100000 ≤ ((0x0FFFFF : Word).extractLsb' 0 24).toNat) ∧
    ¬ (((0x200000 : Word).extractLsb' 0 24).toNat < 0x200000) ∧ 0x100000 ≤ ((0x1FFFFF : Word).extractLsb' 0 24).toNat ∧
    ((0x1FFFFF : Word).extractLsb' 0 24).toNat < 0x200000 ∧ (run.bank .A).view.enable = false :=
  ⟨takes_run .A, by decide⟩

theorem witness_ViewCommandsSweepAndInvalidate :
    Takes .A run ∧ (0x80000000 : Word).getLsbD 31 = true ∧ (0x3FF : Word).getLsbD 31 = false :=
  ⟨takes_run .A, by decide⟩

theorem witness_SweepInvalidatesInOrder :
    run.phase = .run ∧ (run.bank .B).view.sweep = none ∧
    ((run.mapView .B fun v => { v with sweep := some 0 }).bank .B).view.sweep = some 0 ∧
    ((run.mapView .B fun v => { v with sweep := some 63 }).bank .B).view.sweep = some 63 := by decide

theorem witness_RecordsAreReleasedAndCountersCleared : Takes .B run := takes_run .B

theorem witness_ConduitsAreConfiguredAndEnabled :
    Takes .A run ∧ run.configLock = false ∧ (run.conduit 15).enabled = false ∧
    (Instr.conduitEnable (solo .A) 15 1).wellFormed = true :=
  ⟨takes_run .A, by decide⟩

theorem witness_DisableDiscardsWhatIsInFlight :
    Takes .A (handoff id) ∧ (Instr.conduitDisable (solo .A) 0 0).wellFormed = true ∧ (run.conduit 0).enabled = false ∧
    (((handoff id).conduit 0).enabled = true ∧
      ¬ ∃ i : BitVec 3, i.toNat < ((handoff id).conduit 0).slotCount ∧ ((handoff id).conduit 0).slotState i ≠ .free) ∧
    ∃ i : BitVec 3, i.toNat < ((handoff fun c => { c with visible := [0] }).conduit 0).slotCount ∧
      ((handoff fun c => { c with visible := [0] }).conduit 0).slotState i ≠ .free :=
  ⟨⟨rfl, by decide⟩, by decide⟩

theorem witness_OpenWriteTakesTheFirstFreeSlot :
    Takes .A (handoff id) ∧ (Instr.openWrite (solo .A) 1).wellFormed = true ∧ ((handoff id).conduit 0).enabled = true ∧
    (handoff id).isActive .A = true ∧ ((handoff id).conduit 0).producer = .A ∧ ((handoff id).conduit 0).filling = none ∧
    ((0 : BitVec 3).toNat < ((handoff id).conduit 0).slotCount ∧ ((handoff id).conduit 0).slotState 0 = .free) ∧
    (∀ i : BitVec 3, ¬ (i.toNat < ((handoff fun c => { c with visible := [0] }).conduit 0).slotCount ∧
      ((handoff fun c => { c with visible := [0] }).conduit 0).slotState i = .free)) :=
  ⟨⟨rfl, by decide⟩, by decide⟩

theorem witness_CommitStampsAndHandsOver :
    let s := handoff fun c => { c with filling := some 0 }
    Takes .A s ∧ (Instr.commit (solo .A) 0x4002).wellFormed = true ∧ (s.conduit 0).enabled = true ∧
    s.isActive .A = true ∧ (s.conduit 0).producer = .A ∧ (s.conduit 0).filling = some 0 ∧
    (0x4002 : Word).extractLsb' 8 11 ≠ 0 ∧ ((0x4002 : Word).extractLsb' 8 11).toNat ≤ ((s.conduit 0).size.toNat + 1) * 16 :=
  ⟨⟨rfl, by decide⟩, by decide⟩

theorem witness_OpenReadTakesTheHead :
    let s := handoff fun c => { c with visible := [0] }
    Takes .B s ∧ (Instr.openRead (solo .B) 4).wellFormed = true ∧ (s.conduit 0).enabled = true ∧ s.isActive .B = true ∧
    .B ≠ (s.conduit 0).producer ∧ (s.conduit 0).reading = none ∧ (s.conduit 0).visible = 0 :: [] ∧
    ((handoff id).conduit 0).visible = [] :=
  ⟨⟨rfl, by decide⟩, by decide⟩

theorem witness_SlotsAreGivenBack :
    let s := handoff fun c => { c with filling := some 0, reading := some 0 }
    let l := handoff fun c => { c with mode := 1, reading := some 2, visible := [1] }
    (Takes .A s ∧ (s.conduit 0).enabled = true ∧ s.isActive .A = true ∧ (Instr.abandon (solo .A) 3).wellFormed = true ∧
      (s.conduit 0).producer = .A ∧ (s.conduit 0).filling = some 0) ∧
    (Takes .B s ∧ .B ≠ (s.conduit 0).producer ∧ (s.conduit 0).reading = some 0 ∧ (s.conduit 0).mode ≠ 1 ∧
      (Instr.conduitRelease (solo .B) 5).wellFormed = true ∧ (Instr.returnSlot (solo .B) 6).wellFormed = true) ∧
    (Takes .B l ∧ (l.conduit 0).mode = 1 ∧ (l.conduit 0).reading = some 2 ∧ (l.conduit 0).visible ≠ []) :=
  ⟨⟨⟨rfl, by decide⟩, by decide⟩, ⟨⟨rfl, by decide⟩, by decide⟩, ⟨rfl, by decide⟩, by decide⟩

theorem witness_RefusedConduitCommandsAreCounted :
    Takes .A run ∧ (Instr.badOp (solo .A) 0x27).wellFormed = true ∧ (Instr.badOp (solo .A) 0xF).wellFormed = true ∧
    (run.conduit 2).enabled = false :=
  ⟨takes_run .A, by decide⟩

theorem witness_RingsSetAndClearsReachOlderFlags : Takes .A run := takes_run .A

theorem witness_TokenCommandsMoveTheToken :
    let h := token3 (some .A) false true
    (Takes .A run ∧ run.isActive .A = true ∧ (Instr.acquire (solo .A) 0x31).wellFormed = true) ∧
    (Takes .A h ∧ (Instr.tokenRelease (solo .A) 0x32).wellFormed = true ∧ (h.token 3).holder = some .A ∧
      (Instr.forceRelease (solo .A) 0x33).wellFormed = true) ∧
    (Takes .B h ∧ (Instr.cancel (solo .B) 0x30).wellFormed = true ∧ (h.token 3).wait.get .B = true) :=
  ⟨⟨takes_run .A, by decide⟩, ⟨⟨rfl, by decide⟩, by decide⟩, ⟨rfl, by decide⟩, by decide⟩

theorem witness_RefusedTokenCommandsAreCounted :
    Takes .B run ∧ (0x33 : Word).extractLsb' 0 2 = 3 ∧ (run.token 3).holder ≠ some .B ∧
    (run.token 3).wait.get .B = false ∧ (run.mapMonitor .B fun m => { m with presence := .absent }).isActive .B = false :=
  ⟨takes_run .B, by decide⟩

theorem witness_ClaimsAndDismissesNest :
    (Takes .A run ∧ ∀ n, 1 ≤ n → n ≤ 4 → ¬ TierEligible run .A n) ∧
    (Takes .A rung ∧ TierEligible rung .A 3 ∧ (∀ m, 1 ≤ m → m < 3 → ¬ TierEligible rung .A m) ∧
      (pendingLines rung .A).getLsbD 6 = true ∧ (rung.bank .A).events.lineEnable.getLsbD 6 = true ∧
      ((rung.bank .A).events.route 6).toNat = 3) ∧
    ((run.bank .A).events.inService = 0 ∧
      ((rung.mapEvents .A fun e => { e with inService := 8 }).bank .A).events.inService.getLsbD (4 - 1) = true) := by
  refine ⟨⟨takes_run .A, fun n _ _ h => absurd h.2.1 (by decide)⟩,
    ⟨⟨rfl, by decide⟩, ⟨.inr ⟨6, by decide⟩, by decide, by decide, fun m _ h => ?_⟩, fun m h1 h2 h => ?_, by decide⟩,
    by decide⟩
  · have : m ≤ 3 := h
    interval_cases m <;> decide
  · rcases h.1 with h | ⟨l, hl, hp, _, hr⟩
    · interval_cases m <;> exact absurd h (by decide)
    · have : ∀ m < 3, ∀ l < 16, (pendingLines rung .A).getLsbD l = true →
          ((rung.bank .A).events.route l).toNat = m → m = 0 := by decide
      have := this m h2 l hl hp hr
      omega

theorem witness_LinesAndPinsFollowTheState : run.phase = .run := rfl

theorem witness_TimebaseCommands :
    Takes .B run ∧ Takes .A run ∧ run.configLock = false ∧ (Instr.load (solo .A) 1).wellFormed = true ∧
    (Instr.clrRefused (solo .A) 2).wellFormed = true ∧ (∀ k, (run.cadence k).state ≠ .armed ∧ (run.cadence k).state ≠ .running) ∧
    (∃ k, ((timed 0 fun c => { c with state := .armed }).cadence k).state = .armed) :=
  ⟨takes_run .B, takes_run .A, by decide⟩

theorem witness_TicksAdvanceTheTimebase :
    run.phase = .run ∧ run.timebase.left ≤ 1 ∧ ¬ { run.timebase with left := 256 }.left ≤ 1 ∧
    255 < { run.timebase with left := 256 }.left ∧ ¬ (run.bank .A).monitor.Counting ∧
    (let m := ((silent fun m => { m with phase := 254 }).bank .B).monitor
     m.Counting ∧ ¬ m.ExpiresNext) ∧
    ((silent fun m => { m with count := 3, phase := 255 }).bank .B).monitor.ExpiresNext := by decide

theorem witness_CadenceFlagsAndAcknowledgement :
    Takes .B run ∧ Takes .A run ∧ (Instr.clrCmdErr (solo .A) 0 0xF00).wellFormed = true ∧
    (Instr.clrLate (solo .A) 0 0xE00).wellFormed = true ∧ (Instr.clrOverlap (solo .A) 0 0xC00).wellFormed = true ∧
    (Instr.clrAckOverrun (solo .A) 0 0x800).wellFormed = true :=
  ⟨takes_run .B, takes_run .A, by decide⟩

theorem witness_ArmStartsOrRefuses :
    Takes .A run ∧ (Instr.arm (solo .A) 3 1).wellFormed = true ∧ (1 : Word).getLsbD 1 = false ∧
    (run.cadence 3).state = .idle ∧ run.cutoff.active = false ∧ run.timebase.pendingLoad = none ∧
    { run with cutoff := { run.cutoff with active := true } }.cutoff.active = true :=
  ⟨takes_run .A, by decide⟩

theorem witness_StopFlushesTheBoundConduits :
    let s := timed 0 fun c => { c with state := .running }
    Takes .A s ∧ (2 : Word).getLsbD 1 = true ∧ (s.cadence 1).state = .running ∧ (s.cadence 0).state = .idle ∧
    (Instr.stop (solo .A) 1 2).wellFormed = true ∧ (Instr.arm (solo .A) 1 3).wellFormed = true ∧
    s.cutoff.active = false ∧ s.timebase.pendingLoad = none :=
  ⟨⟨rfl, by decide⟩, by decide⟩

/-- STOP and ARM in one write, the ARM refused: cutoff is ACTIVE, or a load is pending. -/
theorem witness_StopFlushesTheBoundConduits_refused :
    (let s := { run with cutoff := { run.cutoff with active := true } }
     Takes .A s ∧ (s.cadence 1).state = .idle ∧ s.cutoff.active = true) ∧
    (let s := { run with timebase := { run.timebase with pendingLoad := some 7 } }
     Takes .A s ∧ (s.cadence 1).state = .idle ∧ s.timebase.pendingLoad ≠ none) :=
  ⟨⟨⟨rfl, by decide⟩, by decide⟩, ⟨⟨rfl, by decide⟩, by decide⟩⟩

theorem witness_CadenceTickEffects :
    (let s := timed 5200 fun c => { c with state := .armed, next := 5200 }
     (s.cadence 1).Live ∧ (s.cadence 1).next = s.timebase.time) ∧
    (let s := timed 5199 fun c => { c with state := .armed, next := 5200 }
     s.phase = .run ∧ TicksNext (clocks (s.timebase.left - 1) s) 1 ∧ ¬ TicksNext (clocks (s.timebase.left - 1) s) 0) := by
  decide

theorem witness_CountedPulsesEnd :
    let s := timed 5300 fun c => { c with state := .running, next := 6200, pulse := .counted 1 }
    ¬ ((s.cadence 1).Live ∧ (s.cadence 1).next = s.timebase.time) ∧ s.phase = .run ∧
    (let u := clocks (s.timebase.left - 1) s
     (u.cadence 1).pulse = .counted 1 ∧ ¬ PinDemands u ∧ ¬ TicksNext u 1 ∧ (u.cadence 0).pulse = .off) := by decide

theorem witness_CutoffEntryStopsTheCadences :
    let low := { run with pins := { run.pins with cutoffN := false }
                          cutoff := { run.cutoff with pinEn := true, sample := false } }
    Takes .B run ∧ (Instr.soft (solo .B) 1).wellFormed = true ∧ run.cutoff.active = false ∧
    { run with cutoff := { run.cutoff with active := true } }.cutoff.active = true ∧ low.phase = .run ∧ PinDemands low ∧
    ¬ PinDemands run :=
  ⟨takes_run .B, by decide⟩

theorem witness_CutoffControlAndPin :
    Takes .A run ∧ run.configLock = false ∧ (Instr.cutoffControlWrite (solo .A) 1).wellFormed = true ∧
    (Instr.clear (solo .A) 3).wellFormed = true ∧ State.reset.phase = .held ∧ run.phase ≠ .held ∧
    (Takes .A { run with configLock := true } ∧ (2 : Word).getLsbD 0 = { run with configLock := true }.cutoff.pinEn ∧
      (3 : Word).getLsbD 0 ≠ { run with configLock := true }.cutoff.pinEn) :=
  ⟨takes_run .A, by decide, by decide, by decide, by decide, by decide, ⟨rfl, by decide⟩, by decide⟩

theorem witness_CaptureRegistersStoreAndConsume : Takes .A run ∧ run.configLock = false ∧ Takes .B run :=
  ⟨takes_run .A, rfl, takes_run .B⟩

theorem witness_EdgesAreCapturedOrDiscarded :
    State.reset.phase = .held ∧ (armedPin id).phase = .run ∧ ((armedPin id).capture 2).source ≠ 3 ∧
    ((armedPin id).capture 2).Selects true ∧ ¬ ((armedPin id).capture 2).Selects false := by decide

theorem witness_LivenessCommandsAndWarning :
    (Takes .A run ∧ run.configLock = false) ∧
    (Takes .B run ∧ (Instr.rejoin (solo .B) 2).wellFormed = true ∧ run.isActive .B = true ∧
      (run.mapMonitor .B fun m => { m with presence := .absent }).isActive .B = false) ∧
    (let s := silent fun m => { m with count := 1, phase := 255 }
     s.phase = .run ∧ (s.bank .B).monitor.Counting ∧ ¬ (s.bank .B).monitor.ExpiresNext ∧
     (s.bank .B).monitor.WarnsNext ∧ ((clocks (s.timebase.left - 1) s).bank .B).monitor.WarnsNext ∧
     ¬ (s.bank .A).monitor.Counting ∧ ¬ ((clocks (s.timebase.left - 1) s).bank .A).monitor.WarnsNext) :=
  ⟨⟨takes_run .A, by decide⟩, ⟨takes_run .B, by decide⟩, by decide⟩

theorem witness_ExpiryRevokesAndReleases :
    let s := silent fun m => { m with count := 3, phase := 255 }
    s.phase = .run ∧ (s.bank .B).monitor.ExpiresNext ∧ ¬ (s.bank .B).monitor.WarnsNext ∧
    ((clocks (s.timebase.left - 1) s).bank .B).monitor.ExpiresNext ∧
    ¬ ((clocks (s.timebase.left - 1) s).bank .A).monitor.ExpiresNext ∧
    (let t := silent fun m => { m with limit := 1, phase := 255 }
     (t.mapMonitor .B fun m => { m with limit := 1 }).phase = .run ∧
     ((t.mapMonitor .B fun m => { m with limit := 1 }).bank .B).monitor.ExpiresNext ∧
     ((t.mapMonitor .B fun m => { m with limit := 1 }).bank .B).monitor.WarnsNext) := by decide

theorem witness_LockAndBridgeReset :
    Takes .A run ∧ (Instr.lock (solo .A) 2).wellFormed = true ∧ (Instr.bridgeReset (solo .A) 3).wellFormed = true :=
  ⟨takes_run .A, by decide⟩

theorem witness_PortResetReturnsOnePort : Takes .B run ∧ (Instr.portReset (solo .B) 3).wellFormed = true :=
  ⟨takes_run .B, by decide⟩

theorem witness_InitializationClearsTheStore :
    (State.reset.StoreCanonical ∧ State.reset.phase = .held) ∧
    (let s := { State.reset with phase := .init 65535 }
     s.StoreCanonical ∧ s.phase = .init 65535 ∧ Instr.request (.ring (solo .A) 1) = some (solo .A, writeTo .doorbellOut 1) ∧
     ready (solo .A) s = true ∧
     ¬ ((writeTo .doorbellOut 1).size = 2 ∧ (writeTo .doorbellOut 1).op = .read ∧
       ((writeTo .doorbellOut 1).addr = 0 ∨ (writeTo .doorbellOut 1).addr = 4))) ∧
    { State.reset with phase := .init 65536 }.phase = .init 65536 :=
  ⟨⟨rfl, rfl⟩, ⟨rfl, by decide⟩, rfl⟩

/-- The invariants hold at a state in operation, from which a step leads to a next state. -/
theorem witness_StoreStaysCanonical :
    run.StoreCanonical ∧ step { run with pending := [.tick] } = exec .tick run := ⟨rfl, rfl⟩

theorem witness_TokensStaySound : run.TokensSound :=
  ⟨fun t x h => by revert h; cases x <;> simp [run, State.reset, State.pinReset, State.token, Token.reset, PerPort.get],
   fun t x h => by cases x <;> exact absurd h (by decide)⟩

theorem witness_TimingStaysSound : run.TimingSound :=
  ⟨fun h => absurd h (by decide), fun h => absurd h (by decide), by decide⟩

theorem witness_ConduitsStaySound : run.ConduitsSound := by
  intro n
  have e : run.conduit n = Conduit.reset := Table.get_all 4 _ n
  rw [e]
  exact ⟨fun _ => rfl, by decide, by decide, fun h => absurd rfl h, fun h => absurd h (by decide)⟩

end Sys2Proof.Tests
end

section
/-! The checks before a block (R5, R6, R7, R14): the register map read from offset to register, alignment and the
unmapped ranges as arithmetic, and the faults that follow. -/

namespace Sys2Proof

open Sys2Proof.Machine

/-! ## The register map, from offset to register (Table 1.3) -/

theorem conduitRegs_offset (c : BitVec 4) : ∀ e ∈ conduitRegs c, e.2.offset = 2#3 ++ (c ++ BitVec.ofNat 5 e.1) := by
  revert c; decide

theorem cadenceRegs_offset (k : BitVec 2) : ∀ e ∈ cadenceRegs k, e.2.offset = 7#4 ++ (k ++ BitVec.ofNat 6 e.1) := by
  revert k; decide

theorem captureRegs_offset (k : BitVec 2) : ∀ e ∈ captureRegs k, e.2.offset = 16#5 ++ (k ++ BitVec.ofNat 5 e.1) := by
  revert k; decide

theorem fixedRegs_offset : ∀ e ∈ fixedRegs, e.2.offset = BitVec.ofNat 12 e.1 := by decide

theorem mem_of_lookup {regs : List (Nat × Reg)} {n : Nat} {r : Reg} (h : regs.lookup n = some r) : (n, r) ∈ regs := by
  obtain ⟨before, behind, rfl, _⟩ := List.lookup_eq_some_iff.mp h
  simp

/-- An offset is its group's number, the place in the group and the place in the member's registers. -/
theorem offset_parts {hi mid lo : Nat} (off : BitVec (hi + (mid + lo))) :
    off.extractLsb' (mid + lo) hi ++ (off.extractLsb' lo mid ++ off.extractLsb' 0 lo) = off := by
  rw [BitVec.extractLsb'_append_extractLsb'_eq_extractLsb' (by omega),
    BitVec.extractLsb'_append_extractLsb'_eq_extractLsb' (by omega), BitVec.extractLsb'_eq_self]

/-- No register is assigned to a second offset. -/
theorem Reg.offset_of_ofOffset {off : BitVec 12} {r : Reg} (h : Reg.ofOffset off = some r) : r.offset = off := by
  unfold Reg.ofOffset at h
  split at h
  case isTrue hg =>
    rw [conduitRegs_offset _ _ (mem_of_lookup h), ← hg, BitVec.ofNat_toNat, BitVec.setWidth_eq]
    exact offset_parts (hi := 3) (mid := 4) (lo := 5) off
  case isFalse =>
  split at h
  case isTrue hg =>
    rw [cadenceRegs_offset _ _ (mem_of_lookup h), ← hg, BitVec.ofNat_toNat, BitVec.setWidth_eq]
    exact offset_parts (hi := 4) (mid := 2) (lo := 6) off
  case isFalse =>
  split at h
  case isTrue hg =>
    rw [captureRegs_offset _ _ (mem_of_lookup h), ← hg, BitVec.ofNat_toNat, BitVec.setWidth_eq]
    exact offset_parts (hi := 5) (mid := 2) (lo := 5) off
  case isFalse =>
    rw [fixedRegs_offset _ (mem_of_lookup h), BitVec.ofNat_toNat, BitVec.setWidth_eq]

theorem Reg.ofOffset_eq_some_iff {off : BitVec 12} {r : Reg} : Reg.ofOffset off = some r ↔ r.offset = off :=
  ⟨Reg.offset_of_ofOffset, fun h => h ▸ Reg.ofOffset_offset r⟩

theorem Reg.ofOffset_eq_none_iff {off : BitVec 12} : Reg.ofOffset off = none ↔ ∀ r : Reg, r.offset ≠ off := by
  simp only [Option.eq_none_iff_forall_ne_some, ne_eq, Reg.ofOffset_eq_some_iff]

/-! ## Alignment and the address partition as arithmetic (R5, Table 1.2) -/

@[simp] theorem toNat_windowAddr (off : BitVec 12) : (windowAddr off).toNat = off.toNat := by
  refine (BitVec.toNat_append 0#12 off).trans ?_
  simp

/-- R5: an access is aligned where its address is a multiple of its number of bytes; size code 3 never is. -/
theorem aligned_iff (a : PortAddr) (size : BitVec 2) :
    aligned a size = true ↔ size ≠ 3 ∧ a.toNat % 2 ^ size.toNat = 0 := by
  match size with
  | 0#2 => simp [aligned, Nat.mod_one]
  | 1#2 => simp [aligned, BitVec.getLsbD, Nat.testBit_zero]
  | 2#2 => simp [aligned, BitVec.extractLsb', BitVec.toNat_eq]
  | 3#2 => simp [aligned]

theorem space_eq_unmapped {a : PortAddr}
    (h : (0x1000 ≤ a.toNat ∧ a.toNat < 0x100000) ∨ 0x200000 ≤ a.toNat) : space a = .unmapped := by
  have hw : a.extractLsb' 12 12 ≠ 0 := fun e => by
    have := congrArg BitVec.toNat e
    simp only [BitVec.extractLsb'_toNat, Nat.shiftRight_eq_div_pow, BitVec.reduceToNat, BitVec.ofNat_eq_ofNat] at this
    omega
  have hv : a.extractLsb' 20 4 ≠ 1 := fun e => by
    have := congrArg BitVec.toNat e
    simp only [BitVec.extractLsb'_toNat, Nat.shiftRight_eq_div_pow, BitVec.reduceToNat, BitVec.ofNat_eq_ofNat] at this
    omega
  simp only [space, hw, hv, if_false]

/-! ## Which command an early refused transaction is -/

/-- An access that is not aligned is no row of its own: every register stands at a multiple of 4. -/
theorem ownRow_not_aligned (p : Sender) {off : BitVec 12} {size : BitVec 2} (op : BusOp)
    (h : aligned (windowAddr off) size = false) : ownRow p off size op = none := by
  unfold ownRow
  split
  case isFalse => rfl
  case isTrue hs =>
    have hn : Reg.ofOffset off = none := Reg.ofOffset_eq_none_iff.mpr fun r hr => by
      subst hs hr
      exact Bool.eq_false_iff.mp h (aligned_windowAddr_offset r)
    rw [hn]

/-- A transaction that is not aligned is a command that presents it. -/
theorem request_ofTxn_not_aligned (p : Sender) {t : Txn} (h : aligned t.addr t.size = false) :
    (Instr.ofTxn p t).request = some (p, t) := by
  obtain ⟨a, size, op⟩ := t
  unfold Instr.ofTxn
  split
  case h_1 off hs =>
    obtain rfl : a = viewAddr off := eq_viewAddr hs
    rfl
  case h_2 => rfl
  case h_3 off hs =>
    obtain rfl : a = windowAddr off := eq_windowAddr hs
    rw [ownRow_not_aligned p op h]
    cases op <;> rfl

end Sys2Proof

namespace Sys2Proof.Machine

variable {x : Port} {s : State} {t : Txn}

/-! ## The early checks, in their order (R5, R6, R7, R14, R22) -/

theorem access_not_aligned (h : aligned t.addr t.size = false) : access x t s = (s, .faulted .misaligned) := by
  simp [access, h]

theorem access_unmapped (h : aligned t.addr t.size = true) (hu : space t.addr = .unmapped) :
    access x t s = (s, .faulted .unmapped) := by
  simp [access, h, hu]

theorem access_narrow {off : BitVec 12} {size : BitVec 2} (op : BusOp) (h : aligned (windowAddr off) size = true)
    (hs : size ≠ 2#2) : access x { addr := windowAddr off, size := size, op := op } s = (s, .faulted .regWidth) := by
  simp [access, h, windowAccess, hs]

theorem access_unassigned {off : BitVec 12} (op : BusOp) (h : aligned (windowAddr off) 2 = true)
    (hn : Reg.ofOffset off = none) :
    access x { addr := windowAddr off, size := 2, op := op } s = (s, .faulted .regNone) := by
  simp only [BitVec.ofNat_eq_ofNat] at h
  simp [access, h, windowAccess, hn]

/-- A command whose transaction is refused before it changes anything. -/
theorem faults_of_request (h : Takes x s) {c : Instr} {r : FaultReason} (hc : c.request = some (solo x, t))
    (ha : access x t s = (s, .faulted r)) : Faults c x t r s s :=
  faults_of_access h ha (exec_request hc s)

/-- Settles O7: each check is decided by the address, the size and the register map alone, in the order of `access`. -/
theorem earlyAccessChecksFault : Obligations.EarlyAccessChecksFault := by
  intro x s h
  refine ⟨fun t ht => ?misaligned, fun t ha hr => ?unmapped,
    fun off => ⟨fun size hs => ?narrow, fun h4 hn => ?unassigned⟩⟩
  case misaligned =>
    have ha : aligned t.addr t.size = false := by
      rw [← Bool.not_eq_true, aligned_iff]
      rintro ⟨h3, hm⟩
      rcases ht with e | ⟨e, hne⟩ | ⟨e, hne⟩
      · exact h3 e
      · exact hne (by simpa [e] using hm)
      · exact hne (by simpa [e] using hm)
    exact faults_of_request h (request_ofTxn_not_aligned _ ha) (access_not_aligned ha)
  case unmapped => exact faults_of_request h rfl (access_unmapped ha (space_eq_unmapped hr))
  case narrow =>
    have ha : aligned (windowAddr off) size = true := by
      rw [aligned_iff, toNat_windowAddr]
      rcases hs with rfl | ⟨rfl, h2⟩
      · exact ⟨by decide, Nat.mod_one _⟩
      · exact ⟨by decide, h2⟩
    have hw : size ≠ 2 := by rcases hs with rfl | ⟨rfl, _⟩ <;> decide
    exact ⟨faults_of_request h rfl (access_narrow _ ha hw), fun w => faults_of_request h rfl (access_narrow _ ha hw)⟩
  case unassigned =>
    have ha : aligned (windowAddr off) 2 = true := by
      rw [aligned_iff, toNat_windowAddr]
      exact ⟨by decide, h4⟩
    have ho := Reg.ofOffset_eq_none_iff.mpr hn
    exact ⟨faults_of_request h rfl (access_unassigned _ ha ho),
      fun w => faults_of_request h rfl (access_unassigned _ ha ho)⟩

end Sys2Proof.Machine
end

section
/-! Register reads and ignored writes as commands, in operation and during initialization (R13, R15, R16, R171). -/

namespace Sys2Proof.Machine

variable {x : Port} {s u : State} {t : Txn} {c : Instr}

/-! ## Performed register accesses -/

/-- A command whose transaction is performed. -/
theorem performs_of_request (h : Takes x s) {d : Word} (hc : c.request = some (solo x, t))
    (ha : access x t s = (u, .okay d)) : Performs c x d s u :=
  (exec_request hc s).trans (congrArg _ (present_okay h ha))

theorem regAccess_read (x : Port) (r : Reg) (s : State) :
    regAccess x r .read s = (readEffect x r s, .okay (regRead s x r)) := rfl

/-- R13: a write to a read-only register is ignored. -/
theorem regAccess_write_readOnly {r : Reg} (hr : writerOf r = .readOnly) (w : Word) :
    regAccess x r (.write w) s = (s, .okay 0) := if_pos hr

/-- The read of a register whose read does not act. -/
theorem performs_read (h : Takes x s) (r : Reg) (he : readEffect x r s = s) :
    Performs (.registerRead (solo x) r.offset 2) x (regRead s x r) s s :=
  performs_of_request h (t := readOf r) rfl (by rw [access_readOf, regAccess_read, he])

theorem performs_write_readOnly (h : Takes x s) {r : Reg} (hr : writerOf r = .readOnly) (w : Word) :
    Performs (.registerWrite (solo x) r.offset 2 w) x 0 s s :=
  performs_of_request h (t := writeTo r w) rfl (by rw [access_writeTo, regAccess_write_readOnly hr])

/-! ## Transactions during initialization (R171) -/

theorem takeStep_init {n : Nat} (hi : s.phase = .init n) :
    takeStep x t s = s.setLink x (.taken (initResponse s x t)) := by
  rw [takeStep, hi]

/-- During initialization a transaction is answered and does nothing else. -/
theorem exec_init {n : Nat} (hi : s.phase = .init n) (h : ready (solo x) s = true)
    (hc : c.request = some (solo x, t)) : exec c s = .next (s.setLink x (.taken (initResponse s x t))) := by
  rw [exec_request hc, present, awaitTake_ready h, ← takeStep_init hi]
  rfl

theorem initResponse_ident : initResponse s x (readOf .ident) = { resp := .okay, rdata := Config.ident } :=
  if_pos ⟨rfl, rfl, rfl⟩

theorem initResponse_bridgeStatus :
    initResponse s x (readOf .bridgeStatus) = { resp := .okay, rdata := bridgeStatus s x } := by
  have hne : windowAddr Reg.bridgeStatus.offset ≠ windowAddr Reg.ident.offset := by decide
  exact (if_neg fun ⟨_, _, ha⟩ => hne ha).trans (if_pos ⟨rfl, rfl, rfl⟩)

/-! ## What BRIDGE_STATUS shows (R16) -/

/-- The word of the four flags INIT, READY, LOCKED and SELF. -/
theorem bridgeStatus_eq {runs lock : Bool} (hr : (s.phase == .run) = runs) (hl : s.configLock = lock) :
    bridgeStatus s x = flagAt (!runs) 0 ||| flagAt runs 1 ||| flagAt lock 2 ||| flagAt (x == .B) 3 := by
  subst hr hl; rfl

/-- In operation: READY, the lock and SELF. -/
theorem bridgeStatus_run (h : s.phase = .run) :
    bridgeStatus s x = (if s.configLock then 6 else 2) ||| (if x = .B then 8 else 0) := by
  rw [bridgeStatus_eq (beq_iff_eq.mpr h) rfl]
  cases s.configLock <;> cases x <;> decide

/-- During initialization, where CONFIG_LOCK is 0: INIT and SELF. -/
theorem bridgeStatus_init {n : Nat} (h : s.phase = .init n) (hl : s.configLock = false) :
    bridgeStatus s x = if x = .B then 9 else 1 := by
  rw [bridgeStatus_eq (beq_false_of_ne fun hr => Phase.noConfusion (h.symm.trans hr)) hl]
  cases x <;> decide

/-- Settles O9: IDENT and BRIDGE_STATUS are the two reads that operation and initialization both answer. -/
theorem identAndStatusRead : Obligations.IdentAndStatusRead := by
  intro x s
  refine ⟨fun h => ⟨?ident, ?write, ?status⟩, fun n hi h hl => ⟨?initIdent, ?initStatus⟩⟩
  case ident => exact performs_read h .ident rfl
  case write => exact performs_write_readOnly h (r := .ident) rfl
  case status =>
    rw [← bridgeStatus_run h.runs]
    exact performs_read h .bridgeStatus rfl
  case initIdent => rw [exec_init hi h (t := readOf .ident) rfl, initResponse_ident]; rfl
  case initStatus =>
    rw [exec_init hi h (t := readOf .bridgeStatus) rfl, initResponse_bridgeStatus, bridgeStatus_init hi hl]

end Sys2Proof.Machine
end

section
/-! The commands of a view as updates of its unit (R29, R30, R32, R42, R43): each stores its fields and asks for a sweep,
or drops the one entry it names. -/

namespace Sys2Proof.Machine

variable {x : Port} {s : State} {v : ViewUnit}

/-! ## Updates of a view unit -/

theorem State.mapView_mapView (s : State) (x : Port) (f g : ViewUnit → ViewUnit) :
    (s.mapView x f).mapView x g = s.mapView x fun v => g (f v) := State.mapBank_mapBank _ _ _ _

/-- Only what an update does to the port's present unit counts. -/
theorem State.mapView_congr {f g : ViewUnit → ViewUnit} (h : f (s.bank x).view = g (s.bank x).view) :
    s.mapView x f = s.mapView x g :=
  congrArg (fun v => { s with banks := s.banks.set x { s.bank x with view := v } }) h

/-! ## Sweep requests and single invalidations -/

/-- The unit after a sweep request: one that runs goes on (R43). -/
def ViewUnit.withSweep (v : ViewUnit) : ViewUnit := { v with sweep := if v.sweep = none then some 0 else v.sweep }

theorem ViewUnit.withSweep_idle (h : v.sweep = none) : v.withSweep = { v with sweep := some 0 } := by
  rw [withSweep, if_pos h]

theorem ViewUnit.withSweep_running (h : v.sweep ≠ none) : v.withSweep = v := by rw [withSweep, if_neg h]

theorem requestSweep_eq (x : Port) (s : State) : requestSweep x s = s.mapView x ViewUnit.withSweep := by
  refine State.mapView_congr ?_
  split
  case isTrue h => exact (ViewUnit.withSweep_running (Option.isSome_iff_ne_none.mp h)).symm
  case isFalse h => exact (ViewUnit.withSweep_idle (Option.not_isSome_iff_eq_none.mp h)).symm

/-- The unit after a single invalidation of the page with cache index `i` and tag `t` (R42). -/
def ViewUnit.drop (i : BitVec 6) (t : BitVec 4) (v : ViewUnit) : ViewUnit :=
  if v.sweep = none ∧ (v.cache.get i).map (·.tag) = some t then { v with cache := v.cache.set i none } else v

theorem invalidatePage_eq (x : Port) (p : BitVec 10) (s : State) :
    invalidatePage x p s = s.mapView x (ViewUnit.drop (cacheIndex p) (cacheTag p)) := by
  refine State.mapView_congr ?_
  cases hs : (s.bank x).view.sweep with
  | some i => simp [ViewUnit.drop, hs]
  | none => cases he : (s.bank x).view.cache.get (cacheIndex p) <;> simp [ViewUnit.drop, hs, he]

/-! ## The writes of the view registers -/

theorem writeViewBase_eq (x : Port) (w : Word) (s : State) :
    writeViewBase x w s = s.mapView x fun v => ViewUnit.withSweep { v with base := w.extractLsb' 0 6 } := by
  rw [writeViewBase, requestSweep_eq, State.mapView_mapView]

/-- R30, R32: ENABLE that falls and DIRECT that changes ask for a sweep. -/
theorem writeViewControl_eq (x : Port) (w : Word) (s : State) :
    writeViewControl x w s = s.mapView x fun v =>
      let u := { v with enable := bit w 0, direct := bit w 1 }
      if (v.enable = true ∧ bit w 0 = false) ∨ v.direct ≠ bit w 1 then u.withSweep else u := by
  unfold writeViewControl
  simp only [Bool.or_eq_true, Bool.and_eq_true, Bool.not_eq_true', bne_iff_ne]
  split
  case isTrue h =>
    rw [requestSweep_eq, State.mapView_mapView]
    exact State.mapView_congr (if_pos h).symm
  case isFalse h => exact State.mapView_congr (if_neg h).symm

theorem writeInvalidate_all {w : Word} (h : bit w 31 = true) (x : Port) (s : State) :
    writeInvalidate x w s = s.mapView x ViewUnit.withSweep := by
  rw [writeInvalidate, if_pos h, requestSweep_eq]

theorem writeInvalidate_page {w : Word} (h : bit w 31 = false) (x : Port) (s : State) :
    writeInvalidate x w s = s.mapView x (ViewUnit.drop (w.extractLsb' 0 6) (w.extractLsb' 6 4)) := by
  have hi : cacheIndex (w.extractLsb' 0 10) = w.extractLsb' 0 6 := BitVec.extractLsb'_extractLsb'_of_le (by decide)
  have ht : cacheTag (w.extractLsb' 0 10) = w.extractLsb' 6 4 := BitVec.extractLsb'_extractLsb'_of_le (by decide)
  rw [writeInvalidate, if_neg (Bool.eq_false_iff.mp h), invalidatePage_eq, hi, ht]

/-! ## The commands -/

/-- No register of a port's own copy is locked or belongs to a conduit's configuration. -/
theorem writeRefusal_of_own {r : Reg} (hr : writerOf r = .own) (w : Word) : writeRefusal s x r w = none := by
  have hl : inLockedSet r = false := by cases r <;> cases hr <;> rfl
  have hb : configBusy s r = false := by cases r <;> cases hr <;> rfl
  exact writeRefusal_own (by rw [hr]; decide) hl (by rintro rfl; cases hr) hb

/-- A command that writes a register of the port's own copy. -/
theorem performs_write_own (h : Takes x s) {c : Instr} {r : Reg} {w : Word} {u : State}
    (hc : c.request = some (solo x, writeTo r w)) (hr : writerOf r = .own) (hu : regWrite x r w s = u) :
    Performs c x 0 s u := by
  rw [Performs, exec_request hc, present_write h (by rw [hr]; decide) (writeRefusal_of_own hr w), hu]

/-- Settles O24: each command writes its register of the port's own copy, and the register's write is the named update
of the view unit. -/
theorem viewCommandsSweepAndInvalidate : Obligations.ViewCommandsSweepAndInvalidate := by
  intro x w s h
  refine ⟨?base, ?control, fun h31 => ?all, fun h31 => ?page, ?read⟩
  case base => exact performs_write_own h rfl rfl (writeViewBase_eq x w s)
  case control => exact performs_write_own h rfl rfl (writeViewControl_eq x w s)
  case all =>
    refine performs_write_own h (r := .invalidate) (w := w) ?_ rfl (writeInvalidate_all h31 x s)
    rw [Instr.request, fixedWord_x80000000_0 h31]
  case page =>
    refine performs_write_own h (r := .invalidate) (w := w) ?_ rfl (writeInvalidate_page h31 x s)
    rw [Instr.request, fixedWord_0_x80000000 h31]
  case read => exact performs_read h .invalidate rfl

end Sys2Proof.Machine
end

section
/-! The token commands of an ACTIVE port that succeed (R112 to R115): the selection of OP, then what each command makes
of the token, its waits and TOKEN_RESULT. -/

namespace Sys2Proof.Machine

variable {x : Port} {s u : State} {w : Word} {t : BitVec 4}

/-! ## The selection of OP past check 1 (R111) -/

theorem tokenCommand_cancel (ha : s.isActive x = true) (hw : w.extractLsb' 0 2 = 0#2) :
    tokenCommand x w s = cancelWait x (w.extractLsb' 4 4) s := by simp [tokenCommand, ha, hw]

theorem tokenCommand_acquire (ha : s.isActive x = true) (hw : w.extractLsb' 0 2 = 1#2) :
    tokenCommand x w s = acquireToken x (w.extractLsb' 4 4) s := by simp [tokenCommand, ha, hw]

theorem tokenCommand_release (ha : s.isActive x = true) (hw : w.extractLsb' 0 2 = 2#2) :
    tokenCommand x w s = releaseOwnToken x (w.extractLsb' 4 4) s := by simp [tokenCommand, ha, hw]

theorem tokenCommand_forceRelease (ha : s.isActive x = true) (hw : w.extractLsb' 0 2 = 3#2) :
    tokenCommand x w s = forceReleaseToken x (w.extractLsb' 4 4) s := by simp [tokenCommand, ha, hw]

/-! ## What each command does -/

/-- R112: a free token, one's own, and the partner's. -/
theorem acquireToken_eq (x : Port) (t : BitVec 4) (s : State) :
    acquireToken x t s =
      if (s.token t).holder = none then
        (s.setToken t { s.token t with holder := some x }).setTokenResult x .granted t 1
      else if (s.token t).holder = some x then s.setTokenResult x .heldAlready t 1
      else (s.setToken t { s.token t with wait := (s.token t).wait.set x true }).setTokenResult x .waiting t 1 := by
  unfold acquireToken
  cases hk : (s.token t).holder with
  | none => simp [hk]
  | some y =>
    by_cases hy : y = x
    case pos => simp [hk, hy]
    case neg => simp [hk, hy]

theorem releaseOwnToken_of_holder (hk : (s.token t).holder = some x) :
    releaseOwnToken x t s = (releaseToken x t s).setTokenResult x .released t 2 := if_pos hk

theorem cancelWait_of_waiting (hk : (s.token t).wait.get x = true) :
    cancelWait x t s =
      (s.setToken t { s.token t with wait := (s.token t).wait.set x false }).setTokenResult x .cancelled t 0 :=
  if_pos hk

/-- R115, the steward on a free token. -/
theorem forceReleaseToken_of_free (hk : (s.token t).holder = none) :
    forceReleaseToken .A t s = s.setTokenResult .A .freeAlready t 3 := by simp [forceReleaseToken, hk]

/-- R115, the steward on a token held by either port. -/
theorem forceReleaseToken_of_held {y : Port} (hk : (s.token t).holder = some y) :
    forceReleaseToken .A t s = (releaseToken y t s).setTokenResult .A .released t 3 := by simp [forceReleaseToken, hk]

/-! ## The commands -/

/-- A command that writes TOKEN_COMMAND, its word carrying the command's OP. -/
theorem performs_tokenCommand (h : Takes x s) {c : Instr} {op : BitVec 2}
    (hc : c.request = some (solo x, writeTo .tokenCommand (tokenWord op w))) (hw : w.extractLsb' 0 2 = op)
    (hu : tokenCommand x w s = u) : Performs c x 0 s u :=
  performs_write_own h (r := .tokenCommand) (by rw [hc, tokenWord_eq hw]) rfl hu

/-- Settles O35: OP selects the command, the token's holder and waiting flags select its case, and `releaseToken_eq`
writes out the hand-over. -/
theorem tokenCommandsMoveTheToken : Obligations.TokenCommandsMoveTheToken := by
  intro x w s h ha t k result passed
  refine ⟨fun hw => ?acquire, fun hw hk => ?release, fun hw hk => ?cancel,
    fun hw hx => ⟨fun hk => ?free, fun y hk => ?held⟩⟩
  all_goals replace hw := eq_of_beq hw
  case acquire =>
    exact performs_tokenCommand h rfl hw ((tokenCommand_acquire ha hw).trans (acquireToken_eq x t s))
  case release =>
    refine performs_tokenCommand h rfl hw ?_
    rw [tokenCommand_release ha hw, releaseOwnToken_of_holder hk, releaseToken_eq]
    rfl
  case cancel =>
    exact performs_tokenCommand h rfl hw ((tokenCommand_cancel ha hw).trans (cancelWait_of_waiting hk))
  case free =>
    subst hx
    exact performs_tokenCommand h rfl hw ((tokenCommand_forceRelease ha hw).trans (forceReleaseToken_of_free hk))
  case held =>
    subst hx
    refine performs_tokenCommand h rfl hw ?_
    rw [tokenCommand_forceRelease ha hw, forceReleaseToken_of_held hk, releaseToken_eq]
    rfl

end Sys2Proof.Machine
end

section
/-! The setting registers of a port's own copy (R120, R126 to R129): a written route register taken nibble by nibble, and
a TIER_CONTROL write with and without its soft bits. -/

namespace Sys2Proof.Machine

variable {w : Word}

/-! ## Route registers (R127) -/

theorem place_eq {n : Nat} (v : BitVec n) (pos : Nat) : place v pos = v.setWidth 32 <<< pos := rfl

/-- The field of four bits at nibble `k` of a word that holds one such field at nibble `n`. -/
theorem extractLsb'_place_nibble (v : BitVec 4) {k n : Nat} (hk : k < 8) :
    (place v (4 * n)).extractLsb' (4 * k) 4 = if k = n then v else 0 := by
  apply BitVec.eq_of_getLsbD_eq; intro i hi
  have hw : 4 * k + i < 32 := by omega
  simp only [place_eq, BitVec.getLsbD_extractLsb', BitVec.getLsbD_shiftLeft, BitVec.getLsbD_setWidth, hi, hw]
  split
  case isTrue h =>
    subst h
    have hp : 4 * k + i - 4 * k = i := by omega
    have hge : ¬ 4 * k + i < 4 * k := by omega
    have hi32 : i < 32 := by omega
    simp [hp, hge, hi32]
  case isFalse h =>
    rcases Nat.lt_or_gt_of_ne h with h | h
    · have hb : 4 * k + i < 4 * n := by omega
      simp [hb]
    · have ha : 4 ≤ 4 * k + i - 4 * n := by omega
      simp [BitVec.getLsbD_of_ge _ _ ha]

/-- A register put together of fields at the nibbles of a list shows each field at its own nibble. -/
theorem extractLsb'_foldl_place_nibble (f : Nat → BitVec 4) {k : Nat} (hk : k < 8) (ns : List Nat) (a : Word) :
    (ns.foldl (fun acc n => acc ||| place (f n) (4 * n)) a).extractLsb' (4 * k) 4 =
      a.extractLsb' (4 * k) 4 ||| if k ∈ ns then f k else 0 := by
  induction ns generalizing a with
  | nil => simp
  | cons n ns ih =>
    rw [List.foldl_cons, ih, BitVec.extractLsb'_or, extractLsb'_place_nibble _ hk, BitVec.or_assoc]
    by_cases hn : k = n
    · subst hn; by_cases hm : k ∈ ns <;> simp [hm]
    · simp [hn]

/-- R127: each route field stands for itself. -/
theorem extractLsb'_legalRoutes (w : Word) {k : Nat} (hk : k < 8) :
    (legalRoutes w).extractLsb' (4 * k) 4 = legalRoute (w.extractLsb' (4 * k) 4) := by
  have hm : k ∈ [0, 1, 2, 3, 4, 5, 6, 7] := List.mem_range (n := 8) |>.mpr hk
  rw [legalRoutes, extractLsb'_foldl_place_nibble _ hk, if_pos hm, BitVec.ofNat_eq_ofNat,
    BitVec.extractLsb'_zero, BitVec.zero_or]

/-! ## TIER_CONTROL (R128, R129) -/

/-- Part of a field that is 0 is 0. -/
theorem extractLsb'_eq_zero_of_part {pos len i n : Nat} (hw : w.extractLsb' pos len = 0) (hi : i + n ≤ len) :
    w.extractLsb' (pos + i) n = 0 := by
  apply BitVec.eq_of_getLsbD_eq; intro j hj
  have hbit := congrArg (fun v => BitVec.getLsbD v (i + j)) hw
  have hlt : i + j < len := by omega
  simpa [hj, hlt, Nat.add_assoc] using hbit

/-- A TIER_CONTROL write with no soft bit stores GE and the tier enables alone. -/
theorem writeTierControl_of_no_soft (hw : w.extractLsb' 8 8 = 0) (x : Port) (s : State) :
    writeTierControl x w s = s.mapEvents x fun e => { e with ge := bit w 0, tierEnable := w.extractLsb' 1 4 } := by
  have hset : w.extractLsb' 8 4 = 0 := extractLsb'_eq_zero_of_part (i := 0) hw (by omega)
  have hclr : w.extractLsb' 12 4 = 0 := extractLsb'_eq_zero_of_part (i := 4) hw (by omega)
  have keep (soft : BitVec 4) : (soft &&& ~~~0#4) ||| 0#4 = soft := by
    rw [BitVec.not_zero, BitVec.and_allOnes, BitVec.or_zero]
  simp only [writeTierControl, hset, hclr, BitVec.ofNat_eq_ofNat, keep]

/-! ## The commands -/

/-- Settles O10: every one of these registers is of the port's own copy, and its write is the named update of its unit. -/
theorem ownSettingsAreStored : Obligations.OwnSettingsAreStored := by
  intro x w s h change tiers
  refine ⟨?lineEnable, ?mask, fun hw => ?enables, ⟨legalRoutes w, fun n hn => ?fields, ?routeLo, ?routeHi⟩,
    fun _ => ?softSet, fun hw => ?softClr⟩
  case lineEnable => exact performs_write_own h (r := .lineEnable) rfl rfl rfl
  case mask => exact performs_write_own h (r := .doorbellMask) rfl rfl rfl
  case enables => exact performs_write_own h (r := .tierControl) rfl rfl (writeTierControl_of_no_soft hw x s)
  case fields => exact extractLsb'_legalRoutes w hn
  case routeLo => exact performs_write_own h (r := .routeLo) rfl rfl rfl
  case routeHi => exact performs_write_own h (r := .routeHi) rfl rfl rfl
  case softSet => exact performs_write_own h (r := .tierControl) rfl rfl rfl
  case softClr =>
    obtain ⟨hset, _⟩ := Bool.and_eq_true_iff.mp hw
    have hword : fixedWord 0 0xF00 w = w := fixedWord_soft (eq_of_beq hset)
    exact performs_write_own h (congrArg (fun v => some (solo x, writeTo .tierControl v)) hword) rfl rfl

end Sys2Proof.Machine
end

section
/-! Eligibility, claims and dismisses in the words of the rules (R130, R132, R133): the model's searches over tiers and
lines as the smallest tier and the lowest line. -/

namespace Sys2Proof.Machine

variable {x : Port} {s : State} {n l : Nat}

/-! ## The search over the four tiers -/

theorem mem_tiers {m : Nat} : m ∈ [1, 2, 3, 4] ↔ 1 ≤ m ∧ m < 5 := List.mem_range'_1 (n := 4)

theorem find_tier_eq_some {p : Nat → Bool} (h1 : 1 ≤ n) (h4 : n ≤ 4) (hn : p n = true)
    (hmin : ∀ m, 1 ≤ m → m < n → p m = false) : [1, 2, 3, 4].find? p = some n := by
  change (List.range' 1 4).find? p = some n
  rw [List.find?_range'_eq_some, List.mem_range'_1]
  exact ⟨hn, ⟨h1, by omega⟩, fun m hm hmn => by rw [hmin m hm hmn]; rfl⟩

/-! ## Requests and eligibility (R130) -/

theorem mem_requestingLines : l ∈ requestingLines s x n ↔
    l < 16 ∧ (pendingLines s x).getLsbD l = true ∧ (s.bank x).events.lineEnable.getLsbD l = true ∧
      ((s.bank x).events.route l).toNat = n := by
  have hl : l ∈ lineNumbers ↔ l < 16 := List.mem_range (n := 16)
  refine List.mem_filter.trans (and_congr hl ?_)
  rw [Bool.and_eq_true, BitVec.getLsbD_and, Bool.and_eq_true, beq_iff_eq, and_assoc]

theorem hasRequest_iff : hasRequest s x n = true ↔
    (s.bank x).events.soft.getLsbD (n - 1) = true ∨ ∃ l, l ∈ requestingLines s x n := by
  refine Bool.or_eq_true_iff.trans (or_congr_right ?_)
  rw [Bool.not_eq_true', List.isEmpty_eq_false_iff_exists_mem]

theorem unblocked_iff {e : EventUnit} (h4 : n ≤ 4) :
    unblocked e n = true ↔ ∀ m, 1 ≤ m → m ≤ n → e.inService.getLsbD (m - 1) = false := by
  refine List.all_eq_true.trans ?_
  simp only [mem_tiers, Bool.not_eq_true', Bool.and_eq_false_imp, decide_eq_true_eq]
  exact ⟨fun h m h1 hmn => h m ⟨h1, by omega⟩ hmn, fun h m ⟨h1, _⟩ hmn => h m h1 hmn⟩

/-- The model's eligibility is the eligibility of R130. -/
theorem eligible_iff (h4 : n ≤ 4) : eligible s x n = true ↔ TierEligible s x n := by
  have request : hasRequest s x n = true ↔ (s.bank x).events.soft.getLsbD (n - 1) = true ∨
      ∃ l < 16, (pendingLines s x).getLsbD l = true ∧ (s.bank x).events.lineEnable.getLsbD l = true ∧
        ((s.bank x).events.route l).toNat = n :=
    hasRequest_iff.trans (or_congr_right (exists_congr fun _ => mem_requestingLines))
  show (_ && _ && _ && _) = true ↔ _ ∧ _ ∧ _ ∧ _
  rw [Bool.and_eq_true, Bool.and_eq_true, Bool.and_eq_true, request, unblocked_iff h4, and_assoc, and_assoc]

/-! ## What a dismiss ends (R133) -/

/-- Only what an update does to the port's present event unit counts. -/
theorem State.mapEvents_congr {f g : EventUnit → EventUnit} (h : f (s.bank x).events = g (s.bank x).events) :
    s.mapEvents x f = s.mapEvents x g :=
  congrArg (fun e => { s with banks := s.banks.set x { s.bank x with events := e } }) h

theorem dismissTier_eq (x : Port) (s : State) :
    dismissTier x s = s.mapEvents x fun e => (serviceTier (s.bank x).events).elim e fun n =>
      { e with inService := e.inService &&& ~~~(1#4 <<< (n - 1)) } := by
  refine State.mapEvents_congr ?_
  cases serviceTier (s.bank x).events <;> rfl

theorem dismissTier_of_lowest (h1 : 1 ≤ n) (h4 : n ≤ 4) (hn : (s.bank x).events.inService.getLsbD (n - 1) = true)
    (hmin : ∀ m, 1 ≤ m → m < n → (s.bank x).events.inService.getLsbD (m - 1) = false) :
    dismissTier x s = s.mapEvents x fun e => { e with inService := e.inService &&& ~~~(1#4 <<< (n - 1)) } := by
  have hs : serviceTier (s.bank x).events = some n := find_tier_eq_some h1 h4 hn hmin
  rw [dismissTier_eq x s, hs]
  rfl

/-! ## What a claim finds (R132) -/

theorem claimTier_eq_some (h1 : 1 ≤ n) (h4 : n ≤ 4) (hn : TierEligible s x n)
    (hmin : ∀ m, 1 ≤ m → m < n → ¬ TierEligible s x m) : claimTier s x = some n :=
  find_tier_eq_some h1 h4 ((eligible_iff h4).mpr hn) fun m hm hmn =>
    Bool.eq_false_iff.mpr fun he => hmin m hm hmn ((eligible_iff (by omega)).mp he)

/-- The requesting lines stand in rising order. -/
theorem pairwise_requestingLines (s : State) (x : Port) (n : Nat) : (requestingLines s x n).Pairwise (· < ·) :=
  List.Pairwise.filter _ (List.pairwise_lt_range (n := 16))

theorem claimLine_of_lowest (hl : l ∈ requestingLines s x n) (hmin : ∀ j ∈ requestingLines s x n, l ≤ j) :
    claimLine s x n = l := by
  have rising := pairwise_requestingLines s x n
  change (requestingLines s x n).headD 16 = l
  generalize requestingLines s x n = lines at hl hmin rising
  cases lines with
  | nil => cases hl
  | cons j js =>
    rcases List.mem_cons.mp hl with rfl | hjs
    · rfl
    · have hlt : j < l := List.rel_of_pairwise_cons rising hjs
      have hle : l ≤ j := hmin j List.mem_cons_self
      omega

/-- The word of a claim: the tier from bit 0, the line from bit 8 (Table 7.6). -/
theorem claimWord_eq (h4 : n ≤ 4) (hl : l ≤ 16) :
    place (BitVec.ofNat 3 n) 0 ||| place (BitVec.ofNat 5 l) 8 = BitVec.ofNat 32 (n + 256 * l) := by
  have hn8 : n < 2 ^ 8 := by omega
  have disjoint : n ||| l <<< 8 = n + 256 * l := by
    rw [Nat.or_comm, ← Nat.shiftLeft_add_eq_or_of_lt hn8, Nat.shiftLeft_eq]; omega
  have tierField : (place (BitVec.ofNat 3 n) 0).toNat = n := by simp [place_eq]; omega
  have lineField : (place (BitVec.ofNat 5 l) 8).toNat = l <<< 8 := by simp [place_eq, Nat.shiftLeft_eq]; omega
  apply BitVec.eq_of_toNat_eq
  rw [BitVec.toNat_or, tierField, lineField, disjoint, BitVec.toNat_ofNat, Nat.mod_eq_of_lt (by omega)]

/-- The read of CLAIM: what it answers and what it leaves, by what the unit finds. -/
theorem access_claim (x : Port) (s : State) : access x (readOf .claim) s =
    (claimTier s x).elim (s, .okay 0) fun n =>
      (s.mapEvents x fun e => { e with inService := e.inService ||| 1#4 <<< (n - 1) },
        .okay (place (BitVec.ofNat 3 n) 0 ||| place (BitVec.ofNat 5 (claimLine s x n)) 8)) := by
  refine (access_readOf x .claim s).trans ?_
  change (claimEffect x s, Verdict.okay (claimValue s x)) = _
  delta claimEffect claimValue
  cases claimTier s x <;> rfl

theorem claimLine_of_none (h : ∀ l, l ∉ requestingLines s x n) : claimLine s x n = 16 :=
  congrArg (List.headD · 16) (List.eq_nil_iff_forall_not_mem.mpr h)

/-- A claim that finds tier `n` and line `l`. -/
theorem performs_claim_of_some (h : Takes x s) (h4 : n ≤ 4) (hl : l ≤ 16) (hn : claimTier s x = some n)
    (hline : claimLine s x n = l) :
    Performs (.claim (solo x)) x (BitVec.ofNat 32 (n + 256 * l)) s
      (s.mapEvents x fun e => { e with inService := e.inService ||| 1#4 <<< (n - 1) }) :=
  performs_of_request h rfl (by rw [access_claim x s, hn, Option.elim_some, hline, claimWord_eq h4 hl])

/-! ## Nothing to claim, nothing to dismiss -/

theorem claimTier_eq_none (h : ∀ n, 1 ≤ n → n ≤ 4 → ¬ TierEligible s x n) : claimTier s x = none :=
  List.find?_eq_none.mpr fun m hm he => by
    obtain ⟨h1, h5⟩ := mem_tiers.mp hm
    have h4 : m ≤ 4 := by omega
    exact h m h1 h4 ((eligible_iff h4).mp he)

theorem dismissTier_of_none (h : (s.bank x).events.inService = 0) : dismissTier x s = s := by
  have hn : serviceTier (s.bank x).events = none :=
    List.find?_eq_none.mpr fun m _ => by rw [h, BitVec.ofNat_eq_ofNat, BitVec.getLsbD_zero]; decide
  rw [dismissTier_eq x s, hn]
  exact State.mapBank_id s x

theorem performs_claim_of_none (h : Takes x s) (hn : claimTier s x = none) : Performs (.claim (solo x)) x 0 s s :=
  performs_of_request h rfl (by rw [access_claim x s, hn, Option.elim_none])

/-! ## The commands -/

/-- Settles O37: a claim finds the most urgent eligible tier and its lowest line, a dismiss the most urgent tier in
service; a narrow read and the other direction of either register reach neither. -/
theorem claimsAndDismissesNest : Obligations.ClaimsAndDismissesNest := by
  intro x s h e asks service
  refine ⟨fun hn => ?nothing, fun n h1 h4 hn hmin => ⟨fun l hl hlow => ?line, fun hno => ?soft⟩, ?narrow, fun w => ?write,
    ?read, fun w h0 => ?idle, fun w n h1 h4 hn hmin => ?dismiss⟩
  case nothing => exact performs_claim_of_none h (claimTier_eq_none hn)
  case line =>
    have hl16 : l < 16 := hl.1
    exact performs_claim_of_some h h4 (Nat.le_of_lt hl16) (claimTier_eq_some h1 h4 hn hmin)
      (claimLine_of_lowest (mem_requestingLines.mpr hl) fun j hj => hlow j (mem_requestingLines.mp hj))
  case soft =>
    exact performs_claim_of_some h h4 (Nat.le_refl 16) (claimTier_eq_some h1 h4 hn hmin)
      (claimLine_of_none fun l hl => hno l (mem_requestingLines.mp hl))
  case narrow => exact faults_of_request h rfl (access_narrow (off := 0x118) (size := 1) .read rfl (by simp))
  case write => exact performs_write_readOnly h (r := .claim) rfl w
  case read => exact performs_read h .dismiss rfl
  case idle => exact performs_write_own h (r := .dismiss) rfl rfl (dismissTier_of_none h0)
  case dismiss => exact performs_write_own h (r := .dismiss) rfl rfl (dismissTier_of_lowest h1 h4 hn hmin)

end Sys2Proof.Machine
end

section
/-! A port reset step by step (R174): steps 1 to 6 as one update of the port's bank, and what the revocation, the release
of the tokens and the PARTNER latch that follow make of each part of the state. -/

namespace Sys2Proof.Machine

variable {x : Port} {s t : State}

/-! ## Steps 1 to 6: the port's own bank -/

/-- The resetting port's bank after steps 1 to 6: settings stay, a sweep is requested, everything else is at its first
value (R174). -/
def Bank.portReset (b : Bank) : Bank :=
  { view := b.view.withSweep, records := Records.reset, conduits := ConduitPort.reset, tokens := TokenPort.reset
    bells := { b.bells with incoming := 0 }, events := b.events.cleared, timeShadow := 0, capShadow := Table.all 2 0
    monitor := b.monitor.revived .reset, fresh := Fresh.zero }

theorem portReset_eq (x : Port) (s : State) :
    portReset x s = (releaseTokensOf x (revoke x false (s.mapBank x Bank.portReset))).latch x.other linePartner := by
  have hbank : (requestSweep x (s.mapBank x fun b => b.clearEvents.clearRecords)).mapBank x (fun b =>
      { b.clearBells.clearNotices.clearShadows with monitor := b.monitor.revived .reset }) =
        s.mapBank x Bank.portReset := by
    rw [requestSweep_eq, State.mapView, State.mapBank_mapBank, State.mapBank_mapBank]
    rfl
  rw [portReset, hbank]

/-! ## Step 7: what the revocation does to each part -/

/-- The sixteen flags of a notice register, one per conduit or token, determine it. -/
theorem eq_of_flags_iff {a b : BitVec 16}
    (h : ∀ n : BitVec 4, a.getLsbD n.toNat = true ↔ b.getLsbD n.toNat = true) : a = b := by
  apply BitVec.eq_of_getLsbD_eq; intro i hi
  have hn := h (BitVec.ofNat 4 i)
  rw [BitVec.toNat_ofNat, Nat.mod_eq_of_lt hi] at hn
  exact Bool.eq_iff_iff.mpr hn

/-- R108: a port reset revokes whatever HOLD_ON_LOSS holds. -/
theorem revoke_conduit_of_reset (x : Port) (s : State) (n : BitVec 4) :
    (revoke x false s).conduit n = if (s.conduit n).enabled then (s.conduit n).revoked x else s.conduit n := by
  simpa using (revoke_visited x false s).inside n trivial

/-- The COMMIT notices of a port reset's revocation (R107, R108). -/
theorem revoke_commitNotice_of_reset (x : Port) (s : State) (n : BitVec 4) :
    ((revoke x false s).bank x).conduits.commitNotice.getLsbD n.toNat = true ↔
      (s.bank x).conduits.commitNotice.getLsbD n.toNat = true ∨
        ((s.conduit n).enabled = true ∧ x ≠ (s.conduit n).producer ∧ (s.conduit n).reading ≠ none ∧
          ((s.conduit n).mode = 1 → (s.conduit n).visible = [] ∧ (s.conduit n).ready = [])) := by
  simpa [commitMarks, revocationNotes] using (revoke_visited x false s).notice false x n

/-- The revocation of a port notifies that port alone. -/
theorem revoke_bank_other (x : Port) (onExpiry : Bool) (s : State) :
    (revoke x onExpiry s).bank x.other = s.bank x.other := by
  have hv := revoke_visited x onExpiry s
  have hmarks (new : Bool) :
      commitMarks new ((revoke x onExpiry s).bank x.other) = commitMarks new (s.bank x.other) :=
    eq_of_flags_iff fun n => by simp [hv.notice new x.other n, revocationNotes]
  have hnotice : ((revoke x onExpiry s).bank x.other).conduits.commitNotice =
      (s.bank x.other).conduits.commitNotice := hmarks false
  have hfresh : ((revoke x onExpiry s).bank x.other).fresh.commit = (s.bank x.other).fresh.commit := hmarks true
  rw [hv.banks, hnotice, hfresh]

theorem revoke_tokens (x : Port) (onExpiry : Bool) (s : State) : (revoke x onExpiry s).tokens = s.tokens := by
  rw [(revoke_visited x onExpiry s).rest]

/-! ## The frames of steps 7 and 8 -/

theorem releaseTokensOf_conduits (x : Port) (s : State) : (releaseTokensOf x s).conduits = s.conduits := by
  rw [(releaseTokensOf_withdrawn x s).rest]

/-- `s` and `t` agree outside the banks, the conduits and the tokens. -/
def SameShared (s t : State) : Prop :=
  { t with banks := s.banks, conduits := s.conduits, tokens := s.tokens } = s

theorem SameShared.trans {u : State} (h : SameShared s t) (g : SameShared t u) : SameShared s u := by
  unfold SameShared at h g ⊢
  rw [← g] at h
  exact h

theorem sameShared_mapBank (s : State) (x : Port) (f : Bank → Bank) : SameShared s (s.mapBank x f) := rfl

theorem sameShared_revoke (x : Port) (onExpiry : Bool) (s : State) : SameShared s (revoke x onExpiry s) := by
  rw [SameShared, (revoke_visited x onExpiry s).rest]

theorem sameShared_releaseTokensOf (x : Port) (s : State) : SameShared s (releaseTokensOf x s) := by
  rw [SameShared, (releaseTokensOf_withdrawn x s).rest]

/-! ## The nine steps together -/

/-- After step 6 nothing but step 7 reaches the resetting port's bank. -/
theorem portReset_bank_eq_revoke (x : Port) (s : State) :
    (portReset x s).bank x = (revoke x false (s.mapBank x Bank.portReset)).bank x := by
  rw [portReset_eq, State.latch, State.bank_mapBank_of_other, (releaseTokensOf_withdrawn x _).own]

theorem portReset_bank_self (x : Port) (s : State) :
    (portReset x s).bank x =
      { (s.bank x).portReset with
        conduits := { ConduitPort.reset with commitNotice := ((portReset x s).bank x).conduits.commitNotice }
        fresh := { Fresh.zero with commit := ((portReset x s).bank x).fresh.commit } } := by
  have h := (revoke_visited x false (s.mapBank x Bank.portReset)).banks x
  rw [State.bank_mapBank_same, ← portReset_bank_eq_revoke] at h
  exact h

/-- Step 5 clears the COMMIT notices, so that only those of step 7 stand. -/
theorem portReset_commitNotice (x : Port) (s : State) (n : BitVec 4) :
    ((portReset x s).bank x).conduits.commitNotice.getLsbD n.toNat = true ↔
      (s.conduit n).enabled = true ∧ x ≠ (s.conduit n).producer ∧ (s.conduit n).reading ≠ none ∧
        ((s.conduit n).mode = 1 → (s.conduit n).visible = [] ∧ (s.conduit n).ready = []) := by
  have hcleared : ¬ (s.bank x).portReset.conduits.commitNotice.getLsbD n.toNat = true := by
    simp [Bank.portReset, ConduitPort.reset]
  rw [portReset_bank_eq_revoke, revoke_commitNotice_of_reset, State.bank_mapBank_same, State.mapBank_conduit,
    or_iff_right hcleared]

theorem portReset_conduit (x : Port) (s : State) (n : BitVec 4) :
    (portReset x s).conduit n = if (s.conduit n).enabled then (s.conduit n).revoked x else s.conduit n := by
  rw [portReset_eq, State.latch, State.mapBank_conduit, State.conduit, releaseTokensOf_conduits, ← State.conduit,
    revoke_conduit_of_reset, State.mapBank_conduit]

/-- The tokens come to step 8 as they stood before the reset. -/
theorem revoke_token_of_reset (x : Port) (s : State) (k : BitVec 4) :
    (revoke x false (s.mapBank x Bank.portReset)).token k = s.token k := by
  rw [State.token, revoke_tokens, State.mapBank_tokens, ← State.token]

theorem portReset_token (x : Port) (s : State) (k : BitVec 4) :
    (portReset x s).token k = (s.token k).withdrawn x := by
  rw [portReset_eq, State.latch, State.mapBank_token, (releaseTokensOf_withdrawn x _).inside k trivial,
    revoke_token_of_reset]

/-- The partner's bank comes to step 8 as it stood before the reset. -/
theorem revoke_bank_other_of_reset (x : Port) (s : State) :
    (revoke x false (s.mapBank x Bank.portReset)).bank x.other = s.bank x.other := by
  rw [revoke_bank_other, State.bank_mapBank_other]

/-- The hand-overs of step 8 notify the partner (R117). -/
theorem portReset_tokenNotice (x : Port) (s : State) (k : BitVec 4) :
    ((portReset x s).bank x.other).tokens.notice.getLsbD k.toNat = true ↔
      (s.bank x.other).tokens.notice.getLsbD k.toNat = true ∨
        ((s.token k).holder = some x ∧ (s.token k).wait.get x.other = true) := by
  have h := (releaseTokensOf_withdrawn x (revoke x false (s.mapBank x Bank.portReset))).notice false k
  rw [revoke_bank_other_of_reset, revoke_token_of_reset] at h
  rw [portReset_eq, State.latch, State.bank_mapBank_same]
  simpa [tokenMarks] using h

/-- Of the partner's bank, step 8 reaches the TOKEN notices and step 9 the PARTNER latch. -/
theorem portReset_bank_other (x : Port) (s : State) :
    (portReset x s).bank x.other =
      { s.bank x.other with
        tokens := { (s.bank x.other).tokens with notice := ((portReset x s).bank x.other).tokens.notice }
        events := { (s.bank x.other).events with latches := (s.bank x.other).events.latches ||| 0x1000 }
        fresh := ((portReset x s).bank x.other).fresh } := by
  have h := (releaseTokensOf_withdrawn x (revoke x false (s.mapBank x Bank.portReset))).partner
  rw [revoke_bank_other_of_reset] at h
  rw [portReset_eq, State.latch, State.bank_mapBank_same, h]
  rfl

theorem sameShared_portReset (x : Port) (s : State) : SameShared s (portReset x s) := by
  rw [portReset_eq]
  exact (sameShared_mapBank s x _).trans <| (sameShared_revoke x false _).trans <|
    (sameShared_releaseTokensOf x _).trans <| sameShared_mapBank _ x.other _

/-! ## The command -/

/-- Step 6 returns the port to ACTIVE, and no later step touches its monitor. -/
theorem portReset_isActive (x : Port) (s : State) : (portReset x s).isActive x = true := by
  rw [State.isActive, portReset_bank_self]
  rfl

/-- R174: a REJOIN carried by the same write finds the port ACTIVE and has no effect. -/
theorem writePortControl_of_reset {w : Word} (hw : bit w 0 = true) (x : Port) (s : State) :
    writePortControl x w s = portReset x s := by
  have hrejoin : rejoinPort x (portReset x s) = portReset x s := if_pos (portReset_isActive x s)
  rw [writePortControl, if_pos hw]
  simp only [hrejoin, ite_self]

theorem performs_portReset (h : Takes x s) {w : Word} (hw : bit w 0 = true) :
    Performs (.portReset (solo x) w) x 0 s (portReset x s) := by
  refine performs_write_own h (r := .portControl) (w := w) ?_ rfl (writePortControl_of_reset hw x s)
  rw [Instr.request, fixedWord_1_0 hw]

/-- Settles O53: the write performs `portReset`, whose nine steps are read part by part: the resetting port's bank, the
conduits, the tokens, the partner's bank and the rest. -/
theorem portResetReturnsOnePort : Obligations.PortResetReturnsOnePort := by
  intro x w s h hw b
  have hbank := portReset_bank_self x s
  refine ⟨portReset x s, performs_portReset h hw, ⟨?view, ?records, ?tokens, ?conduits, portReset_commitNotice x s,
    ?bells, ?events, ?timeShadow, ?capShadow, ?monitor⟩, portReset_conduit x s, portReset_token x s,
    portReset_tokenNotice x s, portReset_bank_other x s, sameShared_portReset x s⟩
  case view => exact congrArg Bank.view hbank
  case records => exact congrArg Bank.records hbank
  case tokens => exact congrArg Bank.tokens hbank
  case conduits => exact congrArg Bank.conduits hbank
  case bells => exact congrArg Bank.bells hbank
  case events => exact congrArg Bank.events hbank
  case timeShadow => exact congrArg Bank.timeShadow hbank
  case capShadow => exact congrArg Bank.capShadow hbank
  case monitor => exact congrArg Bank.monitor hbank

end Sys2Proof.Machine
end

section
/-! What the operations leave alone, said through two projections of the state: `outer`, all that lies outside the
blocks (the queue, the phase, the lock, the links, the pins, the store), and `unbanked`, all but the banks, with who is
ACTIVE. An operation stays inside its part where it keeps the projection. -/

namespace Sys2Proof.Machine

-- Elaborates the proofs in order, none beside the tests' kernel evaluations: each that waits there costs a thread's memory.
set_option deprecated.oldSectionVars true

variable {s t : State} {x : Port}

/-! ## Work on the banks that changes no presence -/

/-- The state without its banks, and which ports are ACTIVE. -/
def State.unbanked (s : State) : State × (Port → Bool) :=
  ({ s with banks := { a := Bank.reset, b := Bank.reset } }, s.isActive)

theorem isActive_of_unbanked (h : t.unbanked = s.unbanked) (y : Port) : t.isActive y = s.isActive y :=
  congrFun (congrArg Prod.snd h) y

theorem eq_of_unbanked (h : t.unbanked = s.unbanked) : t = { s with banks := t.banks } := by
  have h1 : ({ t with banks := { a := Bank.reset, b := Bank.reset } } : State) =
      { s with banks := { a := Bank.reset, b := Bank.reset } } := congrArg Prod.fst h
  exact congrArg (fun r : State => { r with banks := t.banks }) h1

theorem isActive_mapBank {f : Bank → Bank} (hf : (f (s.bank x)).monitor.presence = (s.bank x).monitor.presence)
    (y : Port) : (s.mapBank x f).isActive y = s.isActive y := by
  unfold State.isActive
  rw [State.bank_mapBank]
  split
  case isTrue h => rw [h, hf]
  case isFalse => rfl

/-- An update of one bank that keeps the presence. -/
theorem unbanked_mapBank {f : Bank → Bank} (hf : (f (s.bank x)).monitor.presence = (s.bank x).monitor.presence) :
    (s.mapBank x f).unbanked = s.unbanked := Prod.ext rfl (funext (isActive_mapBank hf))

@[simp] theorem unbanked_latch (s : State) (x : Port) (l : BitVec 4) : (s.latch x l).unbanked = s.unbanked :=
  unbanked_mapBank rfl

@[simp] theorem unbanked_noteCommit (s : State) (x : Port) (n : BitVec 4) :
    (s.noteCommit x n).unbanked = s.unbanked := unbanked_mapBank rfl

@[simp] theorem unbanked_noteDrain (s : State) (x : Port) (n : BitVec 4) :
    (s.noteDrain x n).unbanked = s.unbanked := unbanked_mapBank rfl

@[simp] theorem unbanked_noteReset (s : State) (x : Port) (n : BitVec 4) :
    (s.noteReset x n).unbanked = s.unbanked := unbanked_mapBank rfl

@[simp] theorem unbanked_noteToken (s : State) (x : Port) (n : BitVec 4) :
    (s.noteToken x n).unbanked = s.unbanked := unbanked_mapBank rfl

@[simp] theorem unbanked_setConduitResult (s : State) (x : Port) (code : ConduitCode) (n op : BitVec 4)
    (i : BitVec 3) : (s.setConduitResult x code n op i).unbanked = s.unbanked := unbanked_mapBank rfl

@[simp] theorem unbanked_setSlotInfo (s : State) (x : Port) (d : Descriptor) :
    (s.setSlotInfo x d).unbanked = s.unbanked := unbanked_mapBank rfl

@[simp] theorem unbanked_setTokenResult (s : State) (x : Port) (code : TokenCode) (n : BitVec 4) (op : BitVec 2) :
    (s.setTokenResult x code n op).unbanked = s.unbanked := unbanked_mapBank rfl

@[simp] theorem unbanked_mapView (s : State) (x : Port) (f : ViewUnit → ViewUnit) :
    (s.mapView x f).unbanked = s.unbanked := unbanked_mapBank rfl

@[simp] theorem unbanked_mapRecords (s : State) (x : Port) (f : Records → Records) :
    (s.mapRecords x f).unbanked = s.unbanked := unbanked_mapBank rfl

@[simp] theorem unbanked_mapEvents (s : State) (x : Port) (f : EventUnit → EventUnit) :
    (s.mapEvents x f).unbanked = s.unbanked := unbanked_mapBank rfl

@[simp] theorem unbanked_countEvent (s : State) (x : Port) (n : Counter) :
    (s.countEvent x n).unbanked = s.unbanked := by
  have hcount : (s.mapBank x fun b => { b with
      records := b.records.withCount n ((s.bank x).records.count n + 1)
      fresh := { b.fresh with loss := if n = .loss then b.fresh.loss + 1 else b.fresh.loss } }).unbanked = s.unbanked :=
    unbanked_mapBank rfl
  simp only [State.countEvent, apply_ite State.unbanked, unbanked_latch, hcount, ite_self]

@[simp] theorem unbanked_recordFault (x : Port) (t : Txn) (r : FaultReason) (s : State) :
    (recordFault x t r s).unbanked = s.unbanked := by simp [recordFault]

@[simp] theorem unbanked_recordDeny (x : Port) (t : Txn) (r : DenyReason) (a : BitVec 2) (c : BitVec 4) (s : State) :
    (recordDeny x t r a c s).unbanked = s.unbanked := by simp [recordDeny]

/-- The record unit works on the banks alone. -/
@[simp] theorem unbanked_applyVerdict (x : Port) (t : Txn) (v : Verdict) (s : State) :
    (applyVerdict x t v s).1.unbanked = s.unbanked := by
  cases v with
  | okay d => rfl
  | denied r a c => by_cases h : (s.bank x).records.deny.isNone = true <;> simp [applyVerdict, h]
  | faulted r => simp [applyVerdict]

@[simp] theorem unbanked_restartMonitor (x : Port) (was : Bool) (s : State) :
    (restartMonitor x was s).unbanked = s.unbanked := by
  have hrestart : (s.mapMonitor x Monitor.restarted).unbanked = s.unbanked := unbanked_mapBank rfl
  simp [restartMonitor, apply_ite State.unbanked, hrestart]

@[simp] theorem unbanked_requestSweep (x : Port) (s : State) : (requestSweep x s).unbanked = s.unbanked :=
  unbanked_mapView s x _

@[simp] theorem unbanked_advanceSweep (x : Port) (s : State) : (advanceSweep x s).unbanked = s.unbanked :=
  unbanked_mapView s x _

@[simp] theorem unbanked_warnIfDue (x : Port) (s : State) : (warnIfDue x s).unbanked = s.unbanked := by
  have hwarned : (s.mapMonitor x fun m => { m with warned := true }).unbanked = s.unbanked := unbanked_mapBank rfl
  simp [warnIfDue, warn, apply_ite State.unbanked, hwarned]

@[simp] theorem unbanked_claimEffect (x : Port) (s : State) : (claimEffect x s).unbanked = s.unbanked := by
  unfold claimEffect
  split <;> simp

/-- What a read does, it does to the banks, but for the record that CAP_TIME_LO consumes. -/
theorem unbanked_readEffect (x : Port) (r : Reg) (s : State) :
    ∃ c : Table 2 Capture, (readEffect x r s).unbanked = State.unbanked { s with captures := c } := by
  cases r with
  | claim => exact ⟨s.captures, unbanked_claimEffect x s⟩
  | timeLo => exact ⟨s.captures, unbanked_mapBank rfl⟩
  | capTimeLo k =>
    exact ⟨s.captures.map k (·.consumedBy x), Prod.ext rfl (funext (isActive_mapBank (s := s) (x := x) rfl))⟩
  | _ => exact ⟨s.captures, rfl⟩

/-- The registers of a port's own copy whose write works on the banks alone. -/
theorem unbanked_regWrite_own {r : Reg} (hr : writerOf r = .own) (hc : r ≠ .conduitCommand) (ht : r ≠ .tokenCommand)
    (hp : r ≠ .portControl) (x : Port) (w : Word) (s : State) : (regWrite x r w s).unbanked = s.unbanked := by
  cases r <;> cases hr
  case portControl => exact absurd rfl hp
  case tokenCommand => exact absurd rfl ht
  case conduitCommand => exact absurd rfl hc
  case viewBase => simp [regWrite, writeViewBase]
  case viewControl => simp [regWrite, writeViewControl, apply_ite State.unbanked]
  case invalidate => simp [regWrite, writeInvalidate, invalidatePage, apply_ite State.unbanked]
  all_goals exact unbanked_mapBank rfl

/-! ## What lies outside the blocks -/

/-- The state with its blocks left out. -/
def State.outer (s : State) : State :=
  { s with banks := { a := Bank.reset, b := Bank.reset }, conduits := Table.all 4 Conduit.reset
           tokens := Table.all 4 Token.reset, timebase := Timebase.reset, cadences := Table.all 2 Cadence.reset
           cutoff := Cutoff.reset false, captures := Table.all 2 Capture.reset }

section outer

variable (h : t.outer = s.outer)
include h

theorem pending_of_outer : t.pending = s.pending := (congrArg State.pending h :)
theorem phase_of_outer : t.phase = s.phase := (congrArg State.phase h :)
theorem configLock_of_outer : t.configLock = s.configLock := (congrArg State.configLock h :)
theorem turn_of_outer : t.turn = s.turn := (congrArg State.turn h :)
theorem links_of_outer : t.links = s.links := (congrArg State.links h :)
theorem pins_of_outer : t.pins = s.pins := (congrArg State.pins h :)
theorem irq_of_outer : t.irq = s.irq := (congrArg State.irq h :)
theorem cadOut_of_outer : t.cadOut = s.cadOut := (congrArg State.cadOut h :)
theorem store_of_outer : t.store = s.store := (congrArg State.store h :)

end outer

theorem outer_of_unbanked (h : t.unbanked = s.unbanked) : t.outer = s.outer :=
  congrArg (fun p : State × (Port → Bool) => p.1.outer) h

@[simp] theorem outer_mapBank (s : State) (x : Port) (f : Bank → Bank) : (s.mapBank x f).outer = s.outer := rfl
@[simp] theorem outer_mapMonitor (s : State) (x : Port) (f : Monitor → Monitor) :
    (s.mapMonitor x f).outer = s.outer := rfl
@[simp] theorem outer_mapConduit (s : State) (n : BitVec 4) (f : Conduit → Conduit) :
    (s.mapConduit n f).outer = s.outer := rfl
@[simp] theorem outer_setToken (s : State) (n : BitVec 4) (v : Token) : (s.setToken n v).outer = s.outer := rfl
@[simp] theorem outer_mapCadence (s : State) (k : BitVec 2) (f : Cadence → Cadence) :
    (s.mapCadence k f).outer = s.outer := rfl
@[simp] theorem outer_mapCapture (s : State) (k : BitVec 2) (f : Capture → Capture) :
    (s.mapCapture k f).outer = s.outer := rfl
@[simp] theorem outer_latch (s : State) (x : Port) (l : BitVec 4) : (s.latch x l).outer = s.outer := rfl
@[simp] theorem outer_latchBoth (s : State) (l : BitVec 4) : (s.latchBoth l).outer = s.outer := rfl
@[simp] theorem outer_noteCommit (s : State) (x : Port) (n : BitVec 4) : (s.noteCommit x n).outer = s.outer := rfl
@[simp] theorem outer_noteDrain (s : State) (x : Port) (n : BitVec 4) : (s.noteDrain x n).outer = s.outer := rfl
@[simp] theorem outer_noteReset (s : State) (x : Port) (n : BitVec 4) : (s.noteReset x n).outer = s.outer := rfl
@[simp] theorem outer_noteToken (s : State) (x : Port) (n : BitVec 4) : (s.noteToken x n).outer = s.outer := rfl
@[simp] theorem outer_setConduitResult (s : State) (x : Port) (code : ConduitCode) (n op : BitVec 4) (i : BitVec 3) :
    (s.setConduitResult x code n op i).outer = s.outer := rfl
@[simp] theorem outer_setSlotInfo (s : State) (x : Port) (d : Descriptor) : (s.setSlotInfo x d).outer = s.outer := rfl
@[simp] theorem outer_setTokenResult (s : State) (x : Port) (code : TokenCode) (n : BitVec 4) (op : BitVec 2) :
    (s.setTokenResult x code n op).outer = s.outer := rfl
@[simp] theorem outer_mapBoth (s : State) (f : Bank → Bank) : (s.mapBoth f).outer = s.outer := rfl

@[simp] theorem outer_countEvent (s : State) (x : Port) (n : Counter) : (s.countEvent x n).outer = s.outer :=
  outer_of_unbanked (unbanked_countEvent s x n)

@[simp] theorem outer_warnIfDue (x : Port) (s : State) : (warnIfDue x s).outer = s.outer :=
  outer_of_unbanked (unbanked_warnIfDue x s)

/-- A fold of operations that each stay inside the blocks. -/
theorem outer_foldl {α : Type} {f : State → α → State} (hf : ∀ s a, (f s a).outer = s.outer) (l : List α) (s : State) :
    (l.foldl f s).outer = s.outer :=
  l.foldlRecOn (motive := fun u => u.outer = s.outer) f rfl fun u hu a _ => (hf u a).trans hu

theorem outer_with (s : State) (b : PerPort Bank) (c : Table 4 Conduit) (k : Table 4 Token) (i : Timebase)
    (d : Table 2 Cadence) (o : Cutoff) (p : Table 2 Capture) :
    State.outer { s with banks := b, conduits := c, tokens := k, timebase := i, cadences := d, cutoff := o
                         captures := p } = s.outer := rfl

theorem Flushed.outer {A : BitVec 2 → Prop} (h : Flushed A s t) : t.outer = s.outer := by
  rw [h.rest]; exact outer_with s ..

@[simp] theorem outer_releaseBound (k : BitVec 2) (s : State) : (releaseBound k s).outer = s.outer :=
  (releaseBound_flushed k s).outer

@[simp] theorem outer_captureWhere (sel : Capture → Bool) (t : Time) (s : State) :
    (captureWhere sel t s).outer = s.outer := by
  rw [(captureWhere_eq sel t s).2]; exact outer_with s ..

@[simp] theorem outer_sampleCaptures (s : State) : (sampleCaptures s).outer = s.outer := by
  rw [(sampleCaptures_eq s).2]; exact outer_with s ..

@[simp] theorem outer_revoke (x : Port) (onExpiry : Bool) (s : State) : (revoke x onExpiry s).outer = s.outer := by
  rw [(revoke_visited x onExpiry s).rest]; exact outer_with s ..

@[simp] theorem outer_releaseTokensOf (x : Port) (s : State) : (releaseTokensOf x s).outer = s.outer := by
  rw [(releaseTokensOf_withdrawn x s).rest]; exact outer_with s ..

/-! ## Internal events -/

@[simp] theorem outer_cadenceTurn (k : BitVec 2) (s : State) : (cadenceTurn k s).outer = s.outer := by
  simp [cadenceTurn, cadenceTick, captureFromTick, countPulse, apply_ite State.outer]

@[simp] theorem outer_haltCadence (k : BitVec 2) (s : State) : (haltCadence k s).outer = s.outer := by
  simp [haltCadence, apply_ite State.outer]

@[simp] theorem outer_haltAll (s : State) : (four.foldl (fun s k => haltCadence k s) s).outer = s.outer :=
  outer_foldl (fun s k => outer_haltCadence k s) four s

@[simp] theorem outer_endPulses (s : State) : (endPulses s).outer = s.outer := by
  rw [(endPulses_eq s).2]; exact outer_with s ..

@[simp] theorem outer_enterCutoff (cause : CutoffCause) (s : State) : (enterCutoff cause s).outer = s.outer := by
  simp only [enterCutoff, outer_endPulses, outer_haltAll]
  exact outer_with s ..

@[simp] theorem outer_detectCutoff (s : State) : (detectCutoff s).outer = s.outer := by
  simp [detectCutoff, apply_ite State.outer]

@[simp] theorem outer_cutoffInstant (s : State) : (cutoffInstant s).outer = s.outer :=
  outer_detectCutoff (sampleCutoff s)

@[simp] theorem outer_tickTime (s : State) : (tickTime s).outer = s.outer :=
  outer_foldl (fun s k => outer_cadenceTurn k s) four (advanceTime s)

@[simp] theorem outer_expire (x : Port) (s : State) : (expire x s).outer = s.outer := by simp [expire]

@[simp] theorem outer_countLiveness (x : Port) (s : State) : (countLiveness x s).outer = s.outer := by
  simp [countLiveness, expireIfDue, apply_ite State.outer]

@[simp] theorem outer_advanceSweep (x : Port) (s : State) : (advanceSweep x s).outer = s.outer := rfl

@[simp] theorem outer_countDivider (s : State) : (countDivider s).outer = s.outer := rfl

/-- The internal events of an instant stay inside the blocks. -/
@[simp] theorem outer_runEvents (s : State) : (runEvents s).outer = s.outer := by
  simp [runEvents, tickLiveness, apply_ite State.outer]

/-! ## Register writes -/

@[simp] theorem outer_conduitCommand (x : Port) (w : Word) (s : State) : (conduitCommand x w s).outer = s.outer := by
  have hopenWrite (n) : (openWriteEffect x n s).outer = s.outer := by
    unfold openWriteEffect; dsimp only; split <;> rfl
  have hcommit (n len) : (commitEffect x n len s).outer = s.outer := by
    unfold commitEffect captureFromCommit; dsimp only; split <;> simp [apply_ite State.outer]
  have habandon (n) : (abandonEffect x n s).outer = s.outer := by unfold abandonEffect; split <;> rfl
  have hopenRead (n) : (openReadEffect x n s).outer = s.outer := by unfold openReadEffect; dsimp only; split <;> rfl
  have hrelease (n) : (releaseEffect x n s).outer = s.outer := by
    unfold releaseEffect; dsimp only; split <;> simp [apply_ite State.outer]
  have hreturn (n) : (returnEffect x n s).outer = s.outer := by unfold returnEffect; split <;> rfl
  unfold conduitCommand
  dsimp only
  split
  · simp
  · simp only [apply_ite State.outer, hopenWrite, hcommit, habandon, hopenRead, hrelease, hreturn, ite_self]

@[simp] theorem outer_releaseToken (y : Port) (n : BitVec 4) (s : State) : (releaseToken y n s).outer = s.outer := by
  simp [releaseToken_eq, apply_ite State.outer]

@[simp] theorem outer_tokenCommand (x : Port) (w : Word) (s : State) : (tokenCommand x w s).outer = s.outer := by
  have hrefuse (code n op) : (refuseToken x code n op s).outer = s.outer := by simp [refuseToken]
  have hcancel (n) : (cancelWait x n s).outer = s.outer := by simp [cancelWait, hrefuse, apply_ite State.outer]
  have hacquire (n) : (acquireToken x n s).outer = s.outer := by simp [acquireToken_eq, apply_ite State.outer]
  have hrelease (n) : (releaseOwnToken x n s).outer = s.outer := by
    simp [releaseOwnToken, hrefuse, apply_ite State.outer]
  have hforce (n) : (forceReleaseToken x n s).outer = s.outer := by
    unfold forceReleaseToken; split
    · exact hrefuse _ _ _
    · split <;> simp
  simp [tokenCommand, hrefuse, hcancel, hacquire, hrelease, hforce, apply_ite State.outer]

@[simp] theorem outer_stopCadence (k : BitVec 2) (s : State) : (stopCadence k s).outer = s.outer := by
  simp [stopCadence, apply_ite State.outer]

@[simp] theorem outer_armCadence (k : BitVec 2) (s : State) : (armCadence k s).outer = s.outer := by
  simp [armCadence, apply_ite State.outer]

@[simp] theorem outer_portReset (x : Port) (s : State) : (portReset x s).outer = s.outer := by simp [portReset_eq]

@[simp] theorem outer_rejoinPort (x : Port) (s : State) : (rejoinPort x s).outer = s.outer := by
  simp [rejoinPort, apply_ite State.outer]

@[simp] theorem outer_resetCadences (s : State) : (resetCadences s).outer = s.outer := by
  refine (outer_with _ ..).trans ?_
  rw [outer_foldl (fun s k => outer_mapCadence s k _), outer_endPulses, outer_haltAll]

@[simp] theorem outer_resetCutoff (s : State) : (resetCutoff s).outer = s.outer := outer_detectCutoff _

@[simp] theorem outer_bridgeReset (s : State) : (bridgeReset s).outer = s.outer := by
  have hcaptures (s) : (resetCaptures s).outer = s.outer :=
    outer_foldl (fun s k => outer_mapCapture s k _) four s
  have hsweep (x s) : (requestSweep x s).outer = s.outer := outer_mapBank s x _
  have htokens (s) : (resetTokens s).outer = s.outer := outer_with s ..
  have hconduits (s) : (resetConduits s).outer = s.outer := outer_foldl (fun s n => outer_mapConduit s n _) sixteen s
  unfold bridgeReset
  rw [outer_foldl (fun s n => (outer_noteReset _ .B n).trans (outer_noteReset s .A n))]
  simp [hcaptures, hsweep, htokens, hconduits]

/-- The state after the LOCK bit of a BRIDGE_CONTROL write. -/
theorem lockBit_eq (w : Word) (s : State) :
    (if bit w 1 then { s with configLock := true } else s) = { s with configLock := s.configLock || bit w 1 } := by
  cases bit w 1 <;> simp

/-- A register write stays inside the blocks, but for the LOCK bit of BRIDGE_CONTROL. -/
theorem outer_regWrite (x : Port) (r : Reg) (w : Word) (s : State) :
    ∃ b, (regWrite x r w s).outer = State.outer { s with configLock := b } := by
  cases r with
  | bridgeControl =>
    refine ⟨s.configLock || bit w 1, ?_⟩
    simp only [regWrite, writeBridgeControl, lockBit_eq, apply_ite State.outer, outer_bridgeReset, ite_self]
  | portControl => exact ⟨s.configLock, by simp [regWrite, writePortControl, apply_ite State.outer]⟩
  | conduitCommand => exact ⟨_, outer_conduitCommand x w s⟩
  | tokenCommand => exact ⟨_, outer_tokenCommand x w s⟩
  | cfgEnable c =>
    exact ⟨s.configLock, by simp [regWrite, writeCfgEnable, enableConduit, disableConduit, apply_ite State.outer]⟩
  | timeControl =>
    have hload (s : State) : (requestLoad s).outer = s.outer := by unfold requestLoad; split <;> rfl
    refine ⟨s.configLock, ?_⟩
    simp only [regWrite, writeTimeControl, apply_ite State.outer, hload, ite_self]
    split <;> rfl
  | cadCommand k => exact ⟨s.configLock, by simp [regWrite, writeCadCommand, apply_ite State.outer]⟩
  | cutoffTrigger => exact ⟨s.configLock, by simp [regWrite, softTrigger, apply_ite State.outer]⟩
  | viewBase | viewControl | invalidate | probeAddr | denyRelease | faultRelease | counter | linePending | lineEnable
  | routeLo | routeHi | tierControl | dismiss | doorbellOut | doorbellIn | doorbellMask | tokenNotice | commitNotice
  | drainNotice | resetNotice =>
    exact ⟨s.configLock, outer_of_unbanked (unbanked_regWrite_own rfl (by simp) (by simp) (by simp) x w s)⟩
  | _ => exact ⟨s.configLock, rfl⟩

end Sys2Proof.Machine
end

section
/-! What a command can do, said once: a host's transaction, a number of core clocks, or one of the two resets. What every
clock and every taken transaction keeps of the state outside the blocks follows (R1, R8, R170), and with it the queue, the
handshake and the canonical store. -/

namespace Sys2Proof.Machine

-- Elaborates the proofs in order, none beside the tests' kernel evaluations: each that waits there costs a thread's memory.
set_option deprecated.oldSectionVars true

variable {s t : State} {x : Port} {p : Sender}

/-! ## What a command can do -/

theorem eventAtClock_eq_clocks (falls : State → Bool) (s : State) : ∃ n, eventAtClock falls s = clocks n s := by
  rcases eventAtClock_cases falls s with ⟨_, _, h⟩ | ⟨_, h⟩
  · exact ⟨1, h⟩
  · exact ⟨0, h⟩

theorem eventAtTick_eq_clocks (falls : State → Bool) (s : State) : ∃ n, eventAtTick falls s = clocks n s := by
  rcases eventAtTick_cases falls s with ⟨_, _, h⟩ | ⟨_, h⟩
  · exact ⟨_, h⟩
  · exact ⟨0, h⟩

/-- Every command presents its transaction, lets core clocks pass with the pins at some level, or is one of the two rows
of pin reset. -/
theorem exec_cases (c : Instr) (s : State) :
    (∃ p t, exec c s = .next (present p t s)) ∨
    (∃ n pins, exec c s = .next (clocks n { s with pins := pins })) ∨
    exec c s = .next (pinReset s) ∨ exec c s = .next (startInit s) := by
  have atClock (falls) (h : exec c s = .next (eventAtClock falls s)) :
      ∃ n pins, exec c s = .next (clocks n { s with pins := pins }) := by
    obtain ⟨n, hn⟩ := eventAtClock_eq_clocks falls s
    exact ⟨n, s.pins, by rw [h, hn]⟩
  have atTick (falls) (h : exec c s = .next (eventAtTick falls s)) :
      ∃ n pins, exec c s = .next (clocks n { s with pins := pins }) := by
    obtain ⟨n, hn⟩ := eventAtTick_eq_clocks falls s
    exact ⟨n, s.pins, by rw [h, hn]⟩
  cases hr : c.request with
  | some r => exact .inl ⟨r.1, r.2, exec_request (by rw [hr]) s⟩
  | none =>
    cases c with
    | sweepProgress | sweepEnd | cutoffDetection => exact .inr (.inl (atClock _ rfl))
    | tick | timeLoadApply | liveWarn | expiry | cadenceTick | pulseEnd => exact .inr (.inl (atTick _ rfl))
    | captureEdge | unmatchedEdge | cutoffPinLevelChange => exact .inr (.inl ⟨1, _, rfl⟩)
    | initializationEnd =>
      by_cases h : s.phase = .init Config.initClocks
      · exact .inr (.inl ⟨1, s.pins, congrArg _ (if_pos h)⟩)
      · exact .inr (.inl ⟨0, s.pins, congrArg _ (if_neg h)⟩)
    | pinReset => exact .inr (.inr (.inl rfl))
    | initialization => exact .inr (.inr (.inr rfl))
    | _ => cases hr

/-- What core clocks, taken transactions and the two resets keep, with the rows' own changes of the pins and of TURN. -/
def Kept (P : State → Prop) : Prop :=
  (∀ s, P s → P (coreClock s)) ∧ (∀ x t s, P s → P (takeStep x t s)) ∧
  (∀ (s : State) y, P s → P { s with turn := y }) ∧ (∀ (s : State) pins, P s → P { s with pins := pins }) ∧
  (∀ s, P s → P (pinReset s)) ∧ ∀ s, P s → P (startInit s)

variable {P : State → Prop}

theorem Kept.present (k : Kept P) (p : Sender) (t : Txn) (hs : P s) : P (present p t s) := by
  obtain ⟨clock, takes, turn, -⟩ := k
  have await : P (awaitTake p s) := by
    have one : P (if ready p s then s else coreClock s) := by
      split
      · exact hs
      · exact clock s hs
    show P (if ready p (if ready p s then s else coreClock s) then if ready p s then s else coreClock s
      else coreClock (if ready p s then s else coreClock s))
    generalize (if ready p s then s else coreClock s) = u at one
    split
    · exact one
    · exact clock u one
  have both (ta tb : Txn) (s : State) (hs : P s) : P (takeBoth ta tb s) := by
    unfold takeBoth
    split
    · exact hs
    · exact turn _ _ (takes _ _ _ (takes _ _ _ hs))
    · exact turn _ _ (takes _ _ _ (takes _ _ _ hs))
  unfold Machine.present take
  split
  · exact takes _ _ _ await
  · exact both _ _ _ await
  · exact both _ _ _ await

/-- What is kept is kept by every command, which always answers a next state. -/
theorem Kept.exec (k : Kept P) (c : Instr) (hs : P s) : ∃ t, exec c s = .next t ∧ P t := by
  obtain ⟨clock, -, -, pins, reset, init⟩ := id k
  rcases exec_cases c s with ⟨p, t, h⟩ | ⟨n, levels, h⟩ | h | h
  · exact ⟨_, h, k.present p t hs⟩
  · exact ⟨_, h, clocks_keep clock n (pins s levels hs)⟩
  · exact ⟨_, h, reset s hs⟩
  · exact ⟨_, h, init s hs⟩

/-- What is kept, and does not speak of the queue, is kept by every step. -/
theorem Kept.step (k : Kept P) (queue : ∀ (s : State) q, P s → P { s with pending := q }) (hs : P s)
    (h : step s = .next t) : P t := by
  unfold Machine.step at h
  split at h
  · cases h
    exact k.1 s hs
  · rename_i c rest _
    obtain ⟨u, hu, hP⟩ := k.exec c (queue s rest hs)
    rw [hu] at h
    cases h
    exact hP

/-! ## A core clock outside the blocks -/

@[simp] theorem outer_clearFresh (s : State) : (clearFresh s).outer = s.outer :=
  (outer_foldl (fun s k => outer_mapCadence s k _) four _).trans (outer_mapBoth s _)

/-- A new instant changes the links and the output pins outside the blocks. -/
theorem outer_newInstant (s : State) : (newInstant s).outer = State.outer (advanceLinks s.drivePins) :=
  outer_clearFresh _

theorem outer_coreClock_run (h : s.phase = .run) :
    (coreClock s).outer = State.outer (advanceLinks s.drivePins) := by
  rw [coreClock_run h, outer_runEvents, outer_newInstant]

theorem coreClock_init {n : Nat} (h : s.phase = .init n) (hn : n < Config.initClocks) :
    coreClock s = clearWord n (sampleCutoff (advanceLinks s)) := by
  rw [coreClock, h]; exact if_pos hn

theorem coreClock_init_end {n : Nat} (h : s.phase = .init n) (hn : ¬ n < Config.initClocks) :
    coreClock s = beginOperation (sampleCutoff (advanceLinks s)) := by
  rw [coreClock, h]; exact if_neg hn

theorem outer_beginOperation (s : State) : (beginOperation s).outer = State.outer { s with phase := .run } := by
  rw [beginOperation, outer_sampleCaptures]
  exact outer_with { s with phase := .run } ..

/-- What a clock does in each phase: nothing, a word cleared, the beginning of operation, or an instant. -/
theorem coreClock_cases (s : State) :
    (s.phase = .held ∧ coreClock s = s) ∨
    (∃ n, s.phase = .init n ∧ coreClock s = clearWord n (sampleCutoff (advanceLinks s))) ∨
    (∃ n, s.phase = .init n ∧ coreClock s = beginOperation (sampleCutoff (advanceLinks s))) ∨
    (s.phase = .run ∧ coreClock s = runEvents (newInstant s)) := by
  cases h : s.phase with
  | held => exact .inl ⟨rfl, coreClock_held h⟩
  | init n =>
    by_cases hn : n < Config.initClocks
    · exact .inr (.inl ⟨n, rfl, coreClock_init h hn⟩)
    · exact .inr (.inr (.inl ⟨n, rfl, coreClock_init_end h hn⟩))
  | run => exact .inr (.inr (.inr ⟨rfl, coreClock_run h⟩))

theorem pending_coreClock (s : State) : (coreClock s).pending = s.pending := by
  rcases coreClock_cases s with ⟨_, h⟩ | ⟨n, _, h⟩ | ⟨n, _, h⟩ | ⟨hr, _⟩
  · rw [h]
  · rw [h]; rfl
  · rw [h]; exact (pending_of_outer (outer_beginOperation _) :)
  · exact (pending_of_outer (outer_coreClock_run hr) :)

/-- The handshake moves at every clock but those under pin reset (R1, R170). -/
theorem links_coreClock (hp : s.phase ≠ .held) :
    (coreClock s).links = { a := s.links.a.advance, b := s.links.b.advance } := by
  rcases coreClock_cases s with ⟨h, _⟩ | ⟨n, _, h⟩ | ⟨n, _, h⟩ | ⟨hr, _⟩
  · exact absurd h hp
  · rw [h]; rfl
  · rw [h]; exact links_of_outer (outer_beginOperation _)
  · exact links_of_outer (outer_coreClock_run hr)

theorem link_coreClock (hp : s.phase ≠ .held) (x : Port) : (coreClock s).link x = (s.link x).advance := by
  rw [State.link, links_coreClock hp]
  cases x <;> rfl

theorem phase_coreClock_run (h : s.phase = .run) : (coreClock s).phase = .run :=
  (phase_of_outer (outer_coreClock_run h)).trans h

theorem phase_coreClock_ne_held (hp : s.phase ≠ .held) : (coreClock s).phase ≠ .held := by
  rcases coreClock_cases s with ⟨h, _⟩ | ⟨n, _, h⟩ | ⟨n, _, h⟩ | ⟨hr, _⟩
  · exact absurd h hp
  · rw [h]; exact Phase.noConfusion
  · rw [h, phase_of_outer (outer_beginOperation _)]; exact Phase.noConfusion
  · rw [phase_coreClock_run hr]; exact Phase.noConfusion

/-! ## What an access and a taken transaction can do -/

/-- Only what an update does to the port's present bank counts. -/
theorem State.mapBank_congr {f g : Bank → Bank} (h : f (s.bank x) = g (s.bank x)) : s.mapBank x f = s.mapBank x g :=
  congrArg (fun b => { s with banks := s.banks.set x b }) h

theorem walkEffects_wellFormed {w : Word} (h : entryForm w = .wellFormed) (x : Port) (p : BitVec 10) (s : State) :
    walkEffects x p w s = walked x p (tableWord (s.bank x).view.base p) w s := by
  have hstore : (if bit w touchedBit then s
      else { s with store := Memory.storeWord s.store (tableWord (s.bank x).view.base p) (withTouched w) }) =
        { s with store := if w.getLsbD 11 then s.store
                          else Memory.storeWord s.store (tableWord (s.bank x).view.base p) (w ||| 0x800) } := by
    unfold bit touchedBit withTouched
    split <;> rfl
  unfold walkEffects
  rw [h]
  dsimp only
  rw [hstore]
  split
  case isTrue hs =>
    refine (State.mapBank_id _ x).symm.trans (State.mapBank_congr ?_)
    simp only [State.bank] at hs ⊢
    simp only [hs, if_true]
  case isFalse hs =>
    refine State.mapBank_congr ?_
    simp only [State.bank] at hs ⊢
    simp only [hs]
    rfl

theorem walkEffects_not_wellFormed {w : Word} (h : entryForm w ≠ .wellFormed) (x : Port) (p : BitVec 10) (s : State) :
    walkEffects x p w s = s := by
  unfold walkEffects
  split
  · rename_i h'; exact absurd h' h
  · rfl

/-- What the walk of a judged access, where there was one, leaves behind. -/
def Judgement.leaves (j : Judgement) (x : Port) (p : BitVec 10) (s : State) : State :=
  match j.walked with
  | some w => walkEffects x p w s
  | none => s

section viewAccess

variable {off : BitVec 20} (size : BitVec 2) {op : BusOp} {j : Judgement}

theorem viewAccess_disabled (he : (s.bank x).view.enable = false) (op : BusOp) :
    viewAccess x off size op s = (s, .faulted .viewOff) := by simp [viewAccess, he]

theorem viewAccess_denied (he : (s.bank x).view.enable = true)
    (hj : judge s x (pageOf off) (inPage off) (isWrite op) = j) {r : DenyReason} (ho : j.outcome = .error r) :
    viewAccess x off size op s =
      (j.leaves x (pageOf off) s, .denied r j.entry.access (denyConduit r j.entry)) := by
  subst hj
  simp only [viewAccess, he, ho, Bool.not_true, Bool.false_eq_true, if_false]
  rfl

theorem viewAccess_read (he : (s.bank x).view.enable = true) (hj : judge s x (pageOf off) (inPage off) false = j)
    {a : StoreAddr} (ho : j.outcome = .ok a) :
    viewAccess x off size .read s = (j.leaves x (pageOf off) s, .okay (Memory.load s.store a size)) := by
  subst hj
  simp only [viewAccess, he, isWrite, ho, Bool.not_true, Bool.false_eq_true, if_false]
  rfl

theorem viewAccess_write (he : (s.bank x).view.enable = true) (hj : judge s x (pageOf off) (inPage off) true = j)
    {a : StoreAddr} (ho : j.outcome = .ok a) (d : Word) :
    viewAccess x off size (.write d) s =
      ({ j.leaves x (pageOf off) s with store := Memory.store (j.leaves x (pageOf off) s).store a size d }, .okay 0) := by
  subst hj
  simp only [viewAccess, he, isWrite, ho, Bool.not_true, Bool.false_eq_true, if_false]
  rfl

end viewAccess

theorem unbanked_store (h : t.unbanked = s.unbanked) (m : List Host.Cell) :
    State.unbanked { t with store := m } = State.unbanked { s with store := m } :=
  congrArg (fun u : State × (Port → Bool) => ({ u.1 with store := m }, u.2)) h

theorem unbanked_walked (x : Port) (p : BitVec 10) (i : BitVec 16) (w : Word) (s : State) :
    (walked x p i w s).unbanked =
      State.unbanked { s with store := if w.getLsbD 11 then s.store else Memory.storeWord s.store i (w ||| 0x800) } := by
  unfold walked
  exact unbanked_mapBank
    (s := { s with store := if w.getLsbD 11 then s.store else Memory.storeWord s.store i (w ||| 0x800) }) rfl

/-- A walk works on the store and the banks, and keeps a canonical store canonical. -/
theorem unbanked_leaves (j : Judgement) (x : Port) (p : BitVec 10) (s : State) :
    ∃ m, (j.leaves x p s).unbanked = State.unbanked { s with store := m } ∧
      (Memory.wf s.store = true → Memory.wf m = true) := by
  unfold Judgement.leaves
  split
  · rename_i w _
    by_cases h : entryForm w = .wellFormed
    · rw [walkEffects_wellFormed h]
      refine ⟨_, unbanked_walked x p _ w s, fun hs => ?_⟩
      split
      · exact hs
      · exact Memory.wf_storeWord hs _ _
    · rw [walkEffects_not_wellFormed h]
      exact ⟨s.store, rfl, id⟩
  · exact ⟨s.store, rfl, id⟩

/-- A view access works on the store and the banks, and keeps a canonical store canonical. -/
theorem unbanked_viewAccess (x : Port) (off : BitVec 20) (size : BitVec 2) (op : BusOp) (s : State) :
    ∃ m, (viewAccess x off size op s).1.unbanked = State.unbanked { s with store := m } ∧
      (Memory.wf s.store = true → Memory.wf m = true) := by
  cases he : (s.bank x).view.enable with
  | false => exact ⟨s.store, by rw [viewAccess_disabled size he], id⟩
  | true =>
    obtain ⟨m, hm, hw⟩ := unbanked_leaves (judge s x (pageOf off) (inPage off) (isWrite op)) x (pageOf off) s
    cases ho : (judge s x (pageOf off) (inPage off) (isWrite op)).outcome with
    | error r => exact ⟨m, by rw [viewAccess_denied size he rfl ho]; exact hm, hw⟩
    | ok a =>
      cases op with
      | read => exact ⟨m, by rw [viewAccess_read size he rfl ho]; exact hm, hw⟩
      | write d =>
        rw [viewAccess_write size he rfl ho]
        have hstore := store_of_outer (outer_of_unbanked hm)
        exact ⟨_, unbanked_store hm _, fun hs => Memory.wf_store (hstore ▸ hw hs) a size d⟩

/-- What an access does: nothing, a read's effect, a register write past its checks, or a view access. -/
theorem access_cases (x : Port) (t : Txn) (s : State) :
    (access x t s).1 = s ∨ (∃ r, (access x t s).1 = readEffect x r s) ∨
    (∃ r w, writeRefusal s x r w = none ∧ (access x t s).1 = regWrite x r w s) ∨
    ∃ m, (access x t s).1.unbanked = State.unbanked { s with store := m } ∧
      (Memory.wf s.store = true → Memory.wf m = true) := by
  unfold access
  split
  · exact .inl rfl
  · split
    · exact .inl rfl
    · unfold windowAccess
      split
      · exact .inl rfl
      · split
        · exact .inl rfl
        · rename_i r _
          cases t.op with
          | read => exact .inr (.inl ⟨r, rfl⟩)
          | write w =>
            simp only [regAccess]
            split
            · exact .inl rfl
            · split
              · exact .inl rfl
              · rename_i hw
                exact .inr (.inr (.inl ⟨r, w, hw, rfl⟩))
    · exact .inr (.inr (.inr (unbanked_viewAccess x _ _ _ s)))

/-- What a taken transaction does: nothing under pin reset, its link alone during initialization, and in operation its
access, which the records and the monitor follow. -/
theorem takeStep_cases (x : Port) (t : Txn) (s : State) :
    (s.phase = .held ∧ takeStep x t s = s) ∨
    (s.phase ≠ .held ∧ ∃ l, takeStep x t s = s.setLink x l) ∨
    (s.phase = .run ∧ ∃ (u : State) (l : Link), takeStep x t s = u.setLink x l ∧ u.unbanked = (access x t s).1.unbanked) := by
  cases h : s.phase with
  | held => exact .inl ⟨rfl, by rw [takeStep, h]⟩
  | init n => exact .inr (.inl ⟨Phase.noConfusion, _, takeStep_init h⟩)
  | run => exact .inr (.inr ⟨rfl, (operate x t s).1, _, by rw [takeStep, h], by simp [operate]⟩)

/-- Outside the blocks an access changes at most the store and the lock. -/
theorem outer_access (x : Port) (t : Txn) (s : State) :
    ∃ lock store, (access x t s).1.outer = State.outer { s with configLock := lock, store := store } := by
  rcases access_cases x t s with h | ⟨r, h⟩ | ⟨r, w, _, h⟩ | ⟨m, h, _⟩
  · exact ⟨_, _, by rw [h]⟩
  · obtain ⟨c, hc⟩ := unbanked_readEffect x r s
    exact ⟨s.configLock, s.store, by rw [h, outer_of_unbanked hc]; rfl⟩
  · obtain ⟨b, hb⟩ := outer_regWrite x r w s
    exact ⟨b, s.store, by rw [h, hb]⟩
  · exact ⟨s.configLock, m, outer_of_unbanked h⟩

/-- Outside the blocks a taken transaction changes at most its link, the store and the lock. -/
theorem outer_takeStep (x : Port) (t : Txn) (s : State) :
    ∃ l lock store, (takeStep x t s).outer = State.outer { s with links := l, configLock := lock, store := store } := by
  rcases takeStep_cases x t s with ⟨_, h⟩ | ⟨_, l, h⟩ | ⟨_, u, l, h, hu⟩
  · exact ⟨_, _, _, by rw [h]⟩
  · exact ⟨_, _, _, by rw [h]; rfl⟩
  · obtain ⟨lock, store, ha⟩ := outer_access x t s
    have hu : u.outer = State.outer { s with configLock := lock, store := store } := (outer_of_unbanked hu).trans ha
    exact ⟨(u.setLink x l).links, lock, store, by
      rw [h]; exact congrArg (fun v : State => { v with links := (u.setLink x l).links }) hu⟩

theorem pending_takeStep (x : Port) (t : Txn) (s : State) : (takeStep x t s).pending = s.pending := by
  obtain ⟨l, lock, store, h⟩ := outer_takeStep x t s
  exact (pending_of_outer h :)

theorem phase_takeStep (x : Port) (t : Txn) (s : State) : (takeStep x t s).phase = s.phase := by
  obtain ⟨l, lock, store, h⟩ := outer_takeStep x t s
  exact (phase_of_outer h :)

theorem turn_takeStep (x : Port) (t : Txn) (s : State) : (takeStep x t s).turn = s.turn := by
  obtain ⟨l, lock, store, h⟩ := outer_takeStep x t s
  exact (turn_of_outer h :)

/-! ## The queue -/

theorem startInit_eq (s : State) : startInit s = s ∨ startInit s = clearWord 0 (restartSamples s) := by
  unfold startInit
  split
  · exact .inr rfl
  · exact .inl rfl

theorem pending_startInit (s : State) : (startInit s).pending = s.pending := by
  rcases startInit_eq s with h | h
  · rw [h]
  · rw [h]; rfl

theorem kept_queue (q : List Instr) : Kept fun s => s.pending = q :=
  ⟨fun s h => (pending_coreClock s).trans h, fun x t s h => (pending_takeStep x t s).trans h, fun _ _ h => h,
    fun _ _ h => h, fun _ h => h, fun s h => (pending_startInit s).trans h⟩

/-- Settles O1. -/
theorem frontCommandRuns : Obligations.FrontCommandRuns := by
  intro c rest s h
  rw [step, h]

/-- Settles O3: no clock, no taken transaction and no reset touches the queue. -/
theorem commandsKeepTheQueue : Obligations.CommandsKeepTheQueue := fun c _ => (kept_queue _).exec c rfl

/-! ## The canonical store -/

theorem State.StoreCanonical.of_store (h : t.store = s.store) (hs : s.StoreCanonical) : t.StoreCanonical := by
  rw [State.StoreCanonical, h]; exact hs

theorem storeCanonical_clearWord (n : Nat) (h : s.StoreCanonical) : (clearWord n s).StoreCanonical :=
  Memory.wf_storeWord h _ _

theorem storeCanonical_coreClock (h : s.StoreCanonical) : (coreClock s).StoreCanonical := by
  rcases coreClock_cases s with ⟨_, e⟩ | ⟨n, _, e⟩ | ⟨n, _, e⟩ | ⟨hr, _⟩
  · rw [e]; exact h
  · rw [e]; exact storeCanonical_clearWord n (s := sampleCutoff (advanceLinks s)) h
  · rw [e]; exact h.of_store (store_of_outer (outer_beginOperation _) :)
  · exact h.of_store (store_of_outer (outer_coreClock_run hr) :)

theorem storeCanonical_access (x : Port) (t : Txn) (h : s.StoreCanonical) : (access x t s).1.StoreCanonical := by
  rcases access_cases x t s with e | ⟨r, e⟩ | ⟨r, w, _, e⟩ | ⟨m, e, hm⟩
  · rw [e]; exact h
  · obtain ⟨c, hc⟩ := unbanked_readEffect x r s
    rw [e]; exact h.of_store (store_of_outer (outer_of_unbanked hc) :)
  · obtain ⟨b, hb⟩ := outer_regWrite x r w s
    rw [e]; exact h.of_store (store_of_outer hb :)
  · exact (show State.StoreCanonical { s with store := m } from hm h).of_store (store_of_outer (outer_of_unbanked e) :)

theorem storeCanonical_takeStep (x : Port) (t : Txn) (h : s.StoreCanonical) : (takeStep x t s).StoreCanonical := by
  rcases takeStep_cases x t s with ⟨_, e⟩ | ⟨_, l, e⟩ | ⟨_, u, l, e, hu⟩
  · rw [e]; exact h
  · rw [e]; exact h
  · have hstore : (u.setLink x l).store = (access x t s).1.store :=
      (store_of_outer (outer_of_unbanked hu) :)
    rw [e]; exact (storeCanonical_access x t h).of_store hstore

theorem storeCanonical_startInit (h : s.StoreCanonical) : (startInit s).StoreCanonical := by
  rcases startInit_eq s with e | e <;> rw [e]
  · exact h
  · exact storeCanonical_clearWord 0 (s := restartSamples s) h

theorem kept_storeCanonical : Kept State.StoreCanonical :=
  ⟨fun _ => storeCanonical_coreClock, fun x t _ => storeCanonical_takeStep x t, fun _ _ h => h, fun _ _ h => h,
    fun _ _ => Memory.wf_ofFree _, fun _ => storeCanonical_startInit⟩

/-- Settles O56: bytes are written by view accesses, by the clocks of initialization and by pin reset, each through an
operation that keeps the canonical form. -/
theorem storeStaysCanonical : Obligations.StoreStaysCanonical := fun _ _ hs h =>
  kept_storeCanonical.step (fun _ _ h => h) hs h

/-! ## The handshake -/

theorem not_taken_iff_stepTaken (s : State) :
    stepTaken s = false ↔ ∀ x r, s.link x ≠ .taken r := by
  have one (x) : (match s.link x with | .taken _ => true | _ => false) = false ↔ ∀ r, s.link x ≠ .taken r := by
    cases s.link x <;> simp
  simp only [stepTaken, List.any_cons, List.any_nil, Bool.or_false, Bool.or_eq_false_iff]
  refine (and_congr (one .A) (one .B)).trans ⟨fun h x => ?_, fun h => ⟨h .A, h .B⟩⟩
  cases x
  · exact h.1
  · exact h.2

/-- With both links free any transaction can be taken. -/
theorem ready_of_free (h : ∀ x, s.link x = .free) (p : Sender) : ready p s = true := by
  have hn : stepTaken s = false := (not_taken_iff_stepTaken s).mpr fun x r => by rw [h]; exact Link.noConfusion
  simp [ready, hn, h]

theorem advance_advance (l : Link) : l.advance.advance = .free := by cases l <;> rfl

/-- Two clocks always suffice, unless RESET_N is low (R1). -/
theorem ready_after_two (hp : s.phase ≠ .held) (p : Sender) : ready p (coreClock (coreClock s)) = true := by
  refine ready_of_free (fun x => ?_) p
  rw [link_coreClock (phase_coreClock_ne_held hp), link_coreClock hp, advance_advance]

/-- A transaction that cannot be taken now is the same transaction one clock later. -/
theorem present_coreClock (hr : ready p s = false) (t : Txn) : present p t s = present p t (coreClock s) := by
  by_cases hp : s.phase = .held
  · rw [coreClock_held hp]
  · have hawait : awaitTake p s = awaitTake p (coreClock s) := by
      by_cases h1 : ready p (coreClock s) = true
      · simp [awaitTake, hr, h1]
      · simp [awaitTake, hr, h1, ready_after_two hp]
    rw [present, hawait, present]

/-- Settles O2: `links_coreClock` moves the handshake, and two clocks free both links. -/
theorem clocksMoveTheHandshake : Obligations.ClocksMoveTheHandshake := by
  intro s
  have run_ne {s : State} (h : s.phase = .run) : s.phase ≠ .held := by rw [h]; exact Phase.noConfusion
  refine ⟨fun hq => ⟨?clock, fun hh => ?held⟩, fun x r hp hl => ⟨?acking, ?free⟩, fun c p t hc hr => ?later⟩
  case clock => rw [step, hq]
  case held => rw [step, hq, coreClock_held hh]
  case acking => rw [link_coreClock (run_ne hp), hl]; rfl
  case free =>
    rw [link_coreClock (run_ne (phase_coreClock_run hp)), link_coreClock (run_ne hp), advance_advance]
  case later => rw [exec_request hc, exec_request hc, present_coreClock hr]

end Sys2Proof.Machine
end

section
/-! The turns of the cadences, their stops and the entry into cutoff, each as one update of the cadences and one flush of
the conduits bound to them (R105, R106, R145 to R149, R152). -/

namespace Sys2Proof.Machine

-- Elaborates the proofs in order, none beside the tests' kernel evaluations: each that waits there costs a thread's memory.
set_option deprecated.oldSectionVars true

variable {s t u : State} {A B : BitVec 2 → Prop}

/-! ## Updates of one entry of a table -/

theorem Table.map_map {n : Nat} {α : Type} (t : Table n α) (i : BitVec n) (f g : α → α) :
    (t.map i f).map i g = t.map i (fun v => g (f v)) :=
  Table.ext fun j => by simp only [Table.get_map]; split <;> simp_all

theorem Table.map_congr {n : Nat} {α : Type} {t : Table n α} {i : BitVec n} {f g : α → α} (h : f (t.get i) = g (t.get i)) :
    t.map i f = t.map i g := congrArg (t.set i) h

theorem Table.map_eq_self {n : Nat} {α : Type} {t : Table n α} {i : BitVec n} {f : α → α} (h : f (t.get i) = t.get i) :
    t.map i f = t :=
  Table.ext fun j => by
    rw [Table.get_map]
    split
    case isTrue e => rw [e, h]
    case isFalse => rfl

theorem State.mapCadence_mapCadence (s : State) (k : BitVec 2) (f g : Cadence → Cadence) :
    (s.mapCadence k f).mapCadence k g = s.mapCadence k fun c => g (f c) :=
  congrArg (fun c => { s with cadences := c }) (Table.map_map s.cadences k f g)

theorem State.mapCadence_congr {k : BitVec 2} {f g : Cadence → Cadence} (h : f (s.cadence k) = g (s.cadence k)) :
    s.mapCadence k f = s.mapCadence k g := congrArg (fun c => { s with cadences := c }) (Table.map_congr h)

theorem State.mapConduit_congr {n : BitVec 4} {f g : Conduit → Conduit} (h : f (s.conduit n) = g (s.conduit n)) :
    s.mapConduit n f = s.mapConduit n g := congrArg (fun c => { s with conduits := c }) (Table.map_congr h)

/-! ## Flushes -/

theorem Cadence.live_iff (c : Cadence) : c.live = true ↔ c.Live := by
  cases h : c.state <;> simp [Cadence.live, Cadence.Live, h]

/-- A flush reads no captures. -/
theorem Flushed.withCaptures (h : Flushed A s t) (c : Table 2 Capture) :
    Flushed A { s with captures := c } { t with captures := c } :=
  ⟨h.bound, h.other, h.notice, h.fresh, h.banks, by rw [h.rest]⟩

theorem Flushed.congr (h : Flushed A s t) (e : ∀ k, A k ↔ B k) : Flushed B s t :=
  funext (fun k => propext (e k)) ▸ h

/-- A flush works on the conduits and the banks, and changes no presence. -/
theorem Flushed.unbanked (h : Flushed A s t) : t.unbanked = State.unbanked { s with conduits := t.conduits } := by
  refine Prod.ext ?_ (funext fun y => ?_)
  · exact congrArg (fun r : State => { r with banks := { a := Bank.reset, b := Bank.reset } }) h.rest
  · show t.isActive y = s.isActive y
    rw [State.isActive, h.banks y]; rfl

/-! ## Halting every cadence -/

/-- A cadence halted by cutoff or by a bridge reset, its pulse ended (R152, R173). -/
def Cadence.halted (c : Cadence) : Cadence :=
  { c with state := if c.state = .armed ∨ c.state = .running then .stopped else c.state, pulse := .off }

theorem Cadence.halted_live (c : Cadence) : c.halted.live = false := by
  unfold Cadence.halted Cadence.live
  cases c.state <;> simp

/-- Cadences halted one after the other stop where they were live, and their conduits are flushed once. -/
theorem haltList_flushed (l : List (BitVec 2)) (s : State) :
    (∀ j, (l.foldl (fun s k => haltCadence k s) s).cadence j =
      if j ∈ l ∧ (s.cadence j).live = true then { s.cadence j with state := .stopped } else s.cadence j) ∧
    Flushed (fun j => j ∈ l ∧ (s.cadence j).live = true)
      { s with cadences := (l.foldl (fun s k => haltCadence k s) s).cadences }
      (l.foldl (fun s k => haltCadence k s) s) := by
  induction l generalizing s with
  | nil => exact ⟨fun j => by simp, Flushed.nothing (by simp) s⟩
  | cons k l ih =>
    obtain ⟨hk, fk⟩ := haltCadence_flushed k s
    obtain ⟨hl, fl⟩ := ih (haltCadence k s)
    have hlive (j) : ((haltCadence k s).cadence j).live = true ↔ j ≠ k ∧ (s.cadence j).live = true := by
      rw [hk j]
      by_cases e : j = k
      · subst e
        cases h : (s.cadence j).live with
        | false => simp [h]
        | true => simp [Cadence.live]
      · simp [e]
    refine ⟨fun j => ?_, ?_⟩
    · rw [List.foldl_cons, hl j, hk j]
      by_cases e : j = k
      · subst e
        cases h : (s.cadence j).live <;> simp [h]
      · simp [e]
    · refine Flushed.congr ((fk.withCadences _).trans fl) fun j => ?_
      rw [hlive j]
      by_cases e : j = k
      · subst e; simp
      · simp [e]

theorem mem_four (k : BitVec 2) : k ∈ four := by revert k; decide

/-- Every cadence halted and every pulse ended, as cutoff and a bridge reset do. -/
theorem haltAll_flushed (s : State) :
    (∀ k, (endPulses (four.foldl (fun s k => haltCadence k s) s)).cadence k = (s.cadence k).halted) ∧
    Flushed (fun k => (s.cadence k).Live)
      { s with cadences := (endPulses (four.foldl (fun s k => haltCadence k s) s)).cadences }
      (endPulses (four.foldl (fun s k => haltCadence k s) s)) := by
  obtain ⟨hc, hf⟩ := haltList_flushed four s
  obtain ⟨pc, pe⟩ := endPulses_eq (four.foldl (fun s k => haltCadence k s) s)
  refine ⟨fun k => ?_, ?_⟩
  · rw [pc k, hc k]
    simp only [mem_four, true_and, Cadence.live_iff]
    unfold Cadence.halted
    split <;> rfl
  · have h := Flushed.congr (hf.withCadences (endPulses (four.foldl (fun s k => haltCadence k s) s)).cadences)
      (B := fun k => (s.cadence k).Live) fun k => by simp [mem_four, Cadence.live_iff]
    rw [← pe] at h
    exact h

/-- Entry into cutoff (R152). -/
theorem enterCutoff_flushed (cause : CutoffCause) (s : State) :
    (∀ k, (enterCutoff cause s).cadence k = (s.cadence k).halted) ∧
    Flushed (fun k => (s.cadence k).Live)
      { s with cutoff := { s.cutoff with active := true, cause := cause }, cadences := (enterCutoff cause s).cadences }
      (enterCutoff cause s) :=
  haltAll_flushed { s with cutoff := { s.cutoff with active := true, cause := cause } }

/-! ## Stopping one cadence -/

theorem stopCadence_live {k : BitVec 2} (h : (s.cadence k).Live) :
    Flushed (· = k) (s.mapCadence k fun c => { c with state := .stopped, pulse := .off }) (stopCadence k s) := by
  rw [stopCadence, if_pos ((Cadence.live_iff _).mpr h)]
  exact releaseBound_flushed k _

theorem stopCadence_not_live {k : BitVec 2} (h : ¬ (s.cadence k).Live) : stopCadence k s = s :=
  if_neg (mt (Cadence.live_iff _).mp h)

/-! ## The tick of one cadence -/

/-- A cadence after its own tick: TICKS, the transfer of staged values, the pulse and what it overtook, and the schedule
(R144, R147 to R149). -/
def Cadence.ticked (c : Cadence) : Cadence :=
  Cadence.schedule (Cadence.startPulse (Cadence.transfer { c with state := .running, ticks := c.ticks + 1 }))

/-- The captures of a cadence tick (R157). -/
theorem captureFromTick_eq (k : BitVec 2) (u : State) : ∃ caps : Table 2 Capture,
    (∀ j, caps.get j =
      if (u.capture j).source = 3 ∧ (u.capture j).csel = k.setWidth 4
      then (u.capture j).after u.timebase.time .internal else u.capture j) ∧
    captureFromTick k u = { u with captures := caps } := by
  obtain ⟨hget, hrest⟩ := captureWhere_eq (fun ch => ch.source == 3 && ch.csel == k.setWidth 4) u.time u
  refine ⟨_, fun j => (hget j).trans ?_, hrest⟩
  simp only [Bool.and_eq_true, beq_iff_eq]
  rfl

/-- A tick changes its cadence, latches its lines and takes the captures, and flushes its conduits. -/
theorem cadenceTick_flushed (k : BitVec 2) (s : State) : ∃ caps : Table 2 Capture,
    (∀ j, caps.get j =
      if (s.capture j).source = 3 ∧ (s.capture j).csel = k.setWidth 4
      then (s.capture j).after s.timebase.time .internal else s.capture j) ∧
    Flushed (· = k)
      { ((s.latch .A (7 + k.setWidth 4)).latch .B (7 + k.setWidth 4)).mapCadence k Cadence.ticked with captures := caps }
      (cadenceTick k s) := by
  have hr := releaseBound_flushed k
    ((s.mapCadence k fun c => { c with state := .running, ticks := c.ticks + 1 }).latchBoth (lineCadence k))
  simp only [cadenceTick]
  generalize releaseBound k
    ((s.mapCadence k fun c => { c with state := .running, ticks := c.ticks + 1 }).latchBoth (lineCadence k)) = u at hr ⊢
  obtain ⟨caps, hget, hcap⟩ := captureFromTick_eq k u
  have hcads : u.cadences.map k (fun c => c.transfer.startPulse.schedule) = s.cadences.map k Cadence.ticked := by
    rw [hr.cadences]
    exact Table.map_map s.cadences k (fun c => { c with state := .running, ticks := c.ticks + 1 })
      fun c => c.transfer.startPulse.schedule
  have hone := (hr.withCaptures caps).withCadences (s.cadences.map k Cadence.ticked)
  rw [hcap]
  refine ⟨caps, fun j => ?_, ?_⟩
  · rw [hget j, hr.rest]; rfl
  · have hend : ({ u with captures := caps } : State).mapCadence k (fun c => c.transfer.startPulse.schedule) =
        { u with captures := caps, cadences := s.cadences.map k Cadence.ticked } :=
      congrArg (fun c => ({ u with captures := caps, cadences := c } : State)) hcads
    rw [hend]
    split
    · exact Flushed.congr (hone.trans (releaseBound_flushed k _)) fun j => or_self_iff
    · exact hone

theorem cadenceDue_iff (k : BitVec 2) (s : State) :
    cadenceDue k s = true ↔ (s.cadence k).Live ∧ (s.cadence k).next = s.timebase.time := by
  simp [cadenceDue, Cadence.live_iff, State.time]

theorem cadenceTurn_due {k : BitVec 2} (h : (s.cadence k).Live ∧ (s.cadence k).next = s.timebase.time) :
    cadenceTurn k s = cadenceTick k s := if_pos ((cadenceDue_iff k s).mpr h)

theorem cadenceTurn_not_due {k : BitVec 2} (h : ¬ ((s.cadence k).Live ∧ (s.cadence k).next = s.timebase.time)) :
    cadenceTurn k s = s.mapCadence k fun c => { c with pulse := c.pulse.countDown } :=
  if_neg (mt (cadenceDue_iff k s).mp h)

end Sys2Proof.Machine
end

section
/-! What a statement about the blocks must check to be kept by every step: it reads only the conduits, the tokens, the
cadences' states and pulses, whether a load is pending, whether cutoff is ACTIVE and which ports are, and every operation
that works on these keeps it. -/

namespace Sys2Proof.Machine

-- Elaborates the proofs in order, none beside the tests' kernel evaluations: each that waits there costs a thread's memory.
set_option deprecated.oldSectionVars true

variable {s t : State} {P : State → Prop}

/-! ## What the invariants read -/

/-- The conduits and tokens, whether a load is pending, each cadence's state and pulse, whether cutoff is ACTIVE, and the
ports that are. -/
def State.inner (s : State) :
    Table 4 Conduit × Table 4 Token × Bool × (BitVec 2 → CadState × Pulse) × Bool × (Port → Bool) :=
  (s.conduits, s.tokens, s.timebase.pendingLoad.isSome, fun k => ((s.cadence k).state, (s.cadence k).pulse),
    s.cutoff.active, s.isActive)

theorem inner_eq (conduits : t.conduits = s.conduits) (tokens : t.tokens = s.tokens)
    (load : t.timebase.pendingLoad.isSome = s.timebase.pendingLoad.isSome)
    (cadences : ∀ k, (t.cadence k).state = (s.cadence k).state ∧ (t.cadence k).pulse = (s.cadence k).pulse)
    (cutoff : t.cutoff.active = s.cutoff.active) (active : ∀ x, t.isActive x = s.isActive x) : t.inner = s.inner := by
  unfold State.inner
  rw [conduits, tokens, load, cutoff, funext active]
  simp only [cadences]

theorem inner_of_unbanked (h : t.unbanked = s.unbanked) : t.inner = s.inner := by
  have e := eq_of_unbanked h
  have ha := isActive_of_unbanked h
  generalize t.banks = b at e
  subst e
  exact inner_eq rfl rfl rfl (fun _ => ⟨rfl, rfl⟩) rfl ha

theorem inner_mapCadence {k : BitVec 2} {f : Cadence → Cadence} (hs : ∀ c, (f c).state = c.state)
    (hp : ∀ c, (f c).pulse = c.pulse) (s : State) : (s.mapCadence k f).inner = s.inner := by
  refine inner_eq rfl rfl rfl (fun j => ?_) rfl fun _ => rfl
  rw [State.cadence_mapCadence]
  split
  case isTrue e => rw [e, hs, hp]; exact ⟨rfl, rfl⟩
  case isFalse => exact ⟨rfl, rfl⟩

theorem inner_captures (s : State) (c : Table 2 Capture) : State.inner { s with captures := c } = s.inner := rfl

theorem inner_sampleCaptures (s : State) : (sampleCaptures s).inner = s.inner := by
  rw [(sampleCaptures_eq s).2]; exact inner_captures s _

theorem inner_mapBoth {f : Bank → Bank} (hf : ∀ b, (f b).monitor.presence = b.monitor.presence) (s : State) :
    (s.mapBoth f).inner = s.inner :=
  (inner_of_unbanked (unbanked_mapBank (hf _))).trans (inner_of_unbanked (unbanked_mapBank (hf _)))

theorem inner_beginOperation (s : State) : (beginOperation s).inner = s.inner := by
  rw [beginOperation, inner_sampleCaptures]; rfl

/-- The passage to the next instant. -/
theorem inner_newInstant (s : State) : (newInstant s).inner = s.inner := by
  have fold (l : List (BitVec 2)) (u : State) : (l.foldl (fun s k => s.mapCadence k fun c =>
      { c with freshOverlap := false, freshAckOverrun := false }) u).inner = u.inner := by
    induction l generalizing u with
    | nil => rfl
    | cons k l ih => exact (ih _).trans (inner_mapCadence (fun _ => by rfl) (fun _ => by rfl) u)
  exact (fold four _).trans (inner_mapBoth (fun _ => by rfl) (advanceLinks s.drivePins))

/-! ## The operations that work on it -/

/-- The operations of chapters 4 and 5 keep `P`: what a conduit's registers do. -/
def KeptByConduits (P : State → Prop) : Prop :=
  (∀ s n r w, (s.conduit n).enabled = false → P s → P (writeCfg r n w s)) ∧
  (∀ s n, P s → P (enableConduit n s)) ∧ (∀ s n, P s → P (disableConduit n s)) ∧
  ∀ s x w, P s → P (conduitCommand x w s)

/-- Those of chapters 6 and 10 and the resets keep `P`: token commands, and ports that are lost, return or are reset. -/
def KeptByPorts (P : State → Prop) : Prop :=
  (∀ s x w, P s → P (tokenCommand x w s)) ∧ (∀ s x, P s → P (expire x s)) ∧ (∀ s x, P s → P (rejoinPort x s)) ∧
  (∀ s x, P s → P (portReset x s)) ∧ (∀ s, P s → P (bridgeReset s)) ∧ ∀ s, P s → P (pinReset s)

/-- Those of chapter 8 keep `P`: the loading of TIME, the cadences and cutoff. -/
def KeptByTiming (P : State → Prop) : Prop :=
  (∀ s, P s → P (requestLoad s)) ∧ (∀ s k, P s → P (stopCadence k s)) ∧ (∀ s k, P s → P (armCadence k s)) ∧
  (∀ s k, P s → P (acknowledgePulse k s)) ∧ (∀ s w, P s → P (writeCutoffControl w s)) ∧
  (∀ s cause, P s → P (enterCutoff cause s)) ∧ (∀ s, P s → P (advanceTime s)) ∧ ∀ s k, P s → P (cadenceTurn k s)

/-- `P` reads the blocks alone, and what works on them keeps it. -/
def BlockInvariant (P : State → Prop) : Prop :=
  (∀ s t, t.inner = s.inner → P s → P t) ∧ KeptByConduits P ∧ KeptByPorts P ∧ KeptByTiming P

theorem BlockInvariant.of_inner (k : BlockInvariant P) (hs : P s) (h : t.inner = s.inner) : P t := k.1 s t h hs

theorem BlockInvariant.of_unbanked (k : BlockInvariant P) (hs : P s) (h : t.unbanked = s.unbanked) : P t :=
  k.of_inner hs (inner_of_unbanked h)

/-! ## Register writes -/

theorem BlockInvariant.writeTimeControl (k : BlockInvariant P) (w : Word) (hs : P s) : P (writeTimeControl w s) := by
  obtain ⟨read, -, -, load, -⟩ := k
  have flag : P (if bit w 1 then { s with timebase := { s.timebase with loadRefused := false } } else s) := by
    split
    · exact read s _ rfl hs
    · exact hs
  simp only [Machine.writeTimeControl]
  generalize (if bit w 1 then ({ s with timebase := { s.timebase with loadRefused := false } } : State) else s) = u at flag
  split
  · exact load u flag
  · exact flag

theorem BlockInvariant.writeCadCommand (b : BlockInvariant P) (k : BitVec 2) (w : Word) (hs : P s) :
    P (writeCadCommand k w s) := by
  obtain ⟨read, -, -, -, stop, arm, -⟩ := b
  have flags : P (s.mapCadence k (·.clearFlags w)) := read s _ (inner_mapCadence (fun _ => by rfl) (fun _ => by rfl) s) hs
  simp only [Machine.writeCadCommand]
  generalize s.mapCadence k (·.clearFlags w) = u at flags
  have stopped : P (if bit w 1 then stopCadence k u else u) := by
    split
    · exact stop u k flags
    · exact flags
  generalize (if bit w 1 then stopCadence k u else u) = v at stopped
  split
  · exact arm v k stopped
  · exact stopped

theorem BlockInvariant.writeBridgeControl (k : BlockInvariant P) (w : Word) (hs : P s) : P (writeBridgeControl w s) := by
  obtain ⟨read, -, ⟨-, -, -, -, reset, -⟩, -⟩ := k
  have lock : P (if bit w 1 then { s with configLock := true } else s) := by
    split
    · exact read s _ rfl hs
    · exact hs
  simp only [Machine.writeBridgeControl]
  generalize (if bit w 1 then ({ s with configLock := true } : State) else s) = u at lock
  split
  · exact reset u lock
  · exact lock

theorem BlockInvariant.writePortControl (k : BlockInvariant P) (x : Port) (w : Word) (hs : P s) :
    P (writePortControl x w s) := by
  obtain ⟨-, -, ⟨-, -, rejoin, reset, -⟩, -⟩ := k
  have hreset : P (if bit w 0 then portReset x s else s) := by
    split
    · exact reset s x hs
    · exact hs
  simp only [Machine.writePortControl]
  generalize (if bit w 0 then portReset x s else s) = u at hreset
  split
  · exact rejoin u x hreset
  · exact hreset

/-- A register write past its checks. -/
theorem BlockInvariant.regWrite (k : BlockInvariant P) {x : Port} {r : Reg} {w : Word}
    (hr : writeRefusal s x r w = none) (hs : P s) : P (regWrite x r w s) := by
  obtain ⟨read, ⟨configure, enable, disable, command⟩, ⟨token, -⟩, ⟨-, -, -, ack, control, enter, -⟩⟩ := id k
  by_cases ho : writerOf r = .own ∧ r ≠ .conduitCommand ∧ r ≠ .tokenCommand ∧ r ≠ .portControl
  · obtain ⟨hw, hc, ht, hp⟩ := ho
    exact k.of_unbanked hs (unbanked_regWrite_own hw hc ht hp x w s)
  have cadence {f : Cadence → Cadence} {j : BitVec 2} (hst : ∀ c, (f c).state = c.state) (hp : ∀ c, (f c).pulse = c.pulse) :
      P (s.mapCadence j f) := read s _ (inner_mapCadence hst hp s) hs
  cases r with
  | conduitCommand => exact command s x w hs
  | tokenCommand => exact token s x w hs
  | portControl => exact k.writePortControl x w hs
  | bridgeControl => exact k.writeBridgeControl w hs
  | liveLimit y => exact k.of_unbanked hs (unbanked_mapBank rfl)
  | cfg f n =>
    refine configure s n f w ?_ hs
    cases he : (s.conduit n).enabled with
    | false => rfl
    | true =>
      have hb : configBusy s (.cfg f n) = true := he
      simp only [writeRefusal, hb, if_true] at hr
      split at hr
      · cases hr
      · split at hr <;> cases hr
  | cfgEnable n =>
    show P (if bit w 0 then enableConduit n s else disableConduit n s)
    split
    · exact enable s n hs
    · exact disable s n hs
  | timeControl => exact k.writeTimeControl w hs
  | cadCommand j => exact k.writeCadCommand j w hs
  | cadAck j => exact ack s j hs
  | cutoffControl => exact control s w hs
  | cutoffTrigger =>
    show P (if bit w 0 && !s.cutoff.active then enterCutoff .soft s else s)
    split
    · exact enter s _ hs
    · exact hs
  | cadConfig | cadStartLo | cadStartHi | cadPeriod | cadPeriodStage | cadWidth | cadWidthStage =>
    exact cadence (fun _ => by rfl) fun _ => by rfl
  | timeSetLo | timeSetHi | prescale | capConfig => exact read s _ rfl hs
  | viewBase | viewControl | invalidate | probeAddr | denyRelease | faultRelease | counter | linePending | lineEnable
  | routeLo | routeHi | tierControl | dismiss | doorbellOut | doorbellIn | doorbellMask | tokenNotice | commitNotice
  | drainNotice | resetNotice => exact absurd ⟨rfl, Reg.noConfusion, Reg.noConfusion, Reg.noConfusion⟩ ho
  | _ => exact hs

/-! ## Taken transactions -/

theorem BlockInvariant.access (k : BlockInvariant P) (x : Port) (t : Txn) (hs : P s) : P (access x t s).1 := by
  rcases access_cases x t s with h | ⟨r, h⟩ | ⟨r, w, hw, h⟩ | ⟨m, h, -⟩
  · rw [h]; exact hs
  · obtain ⟨c, hc⟩ := unbanked_readEffect x r s
    have hc' : P { s with captures := c } := k.of_inner hs rfl
    rw [h]; exact k.of_unbanked hc' hc
  · rw [h]; exact k.regWrite hw hs
  · have hm : P { s with store := m } := k.of_inner hs rfl
    exact k.of_unbanked hm h

theorem BlockInvariant.takeStep (k : BlockInvariant P) (x : Port) (t : Txn) (hs : P s) : P (takeStep x t s) := by
  rcases takeStep_cases x t s with ⟨-, h⟩ | ⟨-, l, h⟩ | ⟨-, u, l, h, hu⟩
  · rw [h]; exact hs
  · rw [h]; exact k.of_inner hs rfl
  · rw [h]; exact k.of_inner (s := u) (k.of_unbanked (k.access x t hs) hu) rfl

/-! ## Core clocks -/

theorem BlockInvariant.cutoffInstant (k : BlockInvariant P) (hs : P s) : P (cutoffInstant s) := by
  obtain ⟨read, -, -, -, -, -, -, -, enter, -⟩ := k
  have hsampled : P (sampleCutoff s) := read s _ rfl hs
  unfold Machine.cutoffInstant detectCutoff
  split
  · exact enter _ _ hsampled
  · exact hsampled

theorem BlockInvariant.tickTime (k : BlockInvariant P) (hs : P s) : P (tickTime s) := by
  obtain ⟨-, -, -, -, -, -, -, -, -, time, turn⟩ := k
  have fold (l : List (BitVec 2)) (u : State) (hu : P u) : P (l.foldl (fun s k => cadenceTurn k s) u) := by
    induction l generalizing u with
    | nil => exact hu
    | cons k l ih => exact ih _ (turn u k hu)
  exact fold four _ (time s hs)

theorem BlockInvariant.countLiveness (k : BlockInvariant P) (x : Port) (hs : P s) : P (countLiveness x s) := by
  obtain ⟨-, -, ⟨-, expires, -⟩, -⟩ := id k
  have hadvanced : P (s.mapMonitor x Monitor.advance) := k.of_unbanked hs (unbanked_mapBank rfl)
  have hwarned : P (warnIfDue x (s.mapMonitor x Monitor.advance)) := k.of_unbanked hadvanced (by simp)
  simp only [Machine.countLiveness, expireIfDue]
  split
  · split
    · split
      · exact expires _ x hwarned
      · exact hwarned
    · exact hadvanced
  · exact hs

theorem BlockInvariant.runEvents (k : BlockInvariant P) (hs : P s) : P (runEvents s) := by
  have hentered := k.cutoffInstant hs
  have hcount : P (countDivider (Machine.cutoffInstant s)) := k.of_inner hentered rfl
  have hticked : P (if tickDue (Machine.cutoffInstant s) then Machine.tickTime (Machine.cutoffInstant s)
      else countDivider (Machine.cutoffInstant s)) := by
    split
    · exact k.tickTime hentered
    · exact hcount
  have hsampled := k.of_inner hticked (inner_sampleCaptures _)
  simp only [Machine.runEvents, tickLiveness]
  refine k.of_unbanked (k.of_unbanked ?_ (unbanked_advanceSweep .A _)) (unbanked_advanceSweep .B _)
  generalize sampleCaptures (if tickDue (Machine.cutoffInstant s) then Machine.tickTime (Machine.cutoffInstant s)
      else countDivider (Machine.cutoffInstant s)) = u at hsampled
  split
  · exact k.countLiveness .B (k.countLiveness .A hsampled)
  · exact hsampled

theorem BlockInvariant.coreClock (k : BlockInvariant P) (hs : P s) : P (coreClock s) := by
  rcases coreClock_cases s with ⟨-, h⟩ | ⟨n, -, h⟩ | ⟨n, -, h⟩ | ⟨-, h⟩
  · rw [h]; exact hs
  · rw [h]; exact k.of_inner hs rfl
  · rw [h]; exact k.of_inner hs ((inner_beginOperation (sampleCutoff (advanceLinks s))).trans rfl)
  · rw [h]; exact k.runEvents (k.of_inner hs (inner_newInstant s))

/-- A block invariant is kept by core clocks, taken transactions and resets, hence by every step. -/
theorem BlockInvariant.kept (k : BlockInvariant P) : Kept P := by
  refine ⟨fun s => k.coreClock, fun x t s => k.takeStep x t, fun s y hs => k.of_inner hs rfl, fun s pins hs => k.of_inner hs rfl, ?_,
    fun s hs => ?_⟩
  · obtain ⟨-, -, ⟨-, -, -, -, -, reset⟩, -⟩ := k
    exact reset
  · rcases startInit_eq s with h | h <;> rw [h]
    · exact hs
    · exact k.of_inner hs rfl

theorem BlockInvariant.step (k : BlockInvariant P) (hs : P s) (h : step s = .next t) : P t :=
  k.kept.step (fun _ _ hs => k.of_inner hs rfl) hs h

end Sys2Proof.Machine
end

section
/-! Slot tables that stay sound: what each operation on one conduit keeps of `ConduitSound` (R74, R77, R85, R93, R99). -/

namespace Sys2Proof.Machine

-- Elaborates the proofs in order, none beside the tests' kernel evaluations: each that waits there costs a thread's memory.
set_option deprecated.oldSectionVars true

variable {s t : State} {c d : Conduit} {i : BitVec 3}

/-! ## Used slots and slot states -/

theorem Conduit.mem_usedSlots : i ∈ c.usedSlots ↔ c.filling = some i ∨ c.reading = some i ∨ i ∈ c.ready ∨ i ∈ c.visible := by
  simp [Conduit.usedSlots]

/-- A slot is FREE exactly where no record speaks of it (R77). -/
theorem Conduit.slotState_eq_free_iff : c.slotState i = .free ↔ i ∉ c.usedSlots := by
  rw [Conduit.mem_usedSlots]
  unfold Conduit.slotState
  by_cases hf : c.filling = some i
  · simp [hf]
  · by_cases hr : c.reading = some i
    · simp [hf, hr]
    · by_cases hy : i ∈ c.ready
      · simp [hf, hr, hy]
      · by_cases hv : i ∈ c.visible <;> simp [hf, hr, hy, hv]

theorem Conduit.mem_slots : i ∈ c.slots ↔ i.toNat < c.slotCount := by
  have h8 : i ∈ ([0, 1, 2, 3, 4, 5, 6, 7] : List (BitVec 3)) := by revert i; decide
  rw [Conduit.slots, List.mem_filter, decide_eq_true_eq]
  exact and_iff_right h8

theorem Conduit.slotCount_le (c : Conduit) : c.slotCount ≤ 8 := by
  have := c.depth.isLt
  unfold Conduit.slotCount
  repeat' split
  all_goals omega

/-- The slots that OPEN_WRITE examines are the conduit's (R94, R96, R99). -/
theorem Conduit.mem_candidates (h : i ∈ c.candidates) : i.toNat < c.slotCount := by
  unfold Conduit.candidates at h
  split at h
  · obtain ⟨j, hj, rfl⟩ := List.mem_map.mp h
    have hpos : 0 < c.slotCount := Nat.zero_lt_of_lt (List.mem_range.mp hj)
    have hlt := Nat.mod_lt (c.cursor.toNat + 1 + j) hpos
    have := c.slotCount_le
    rw [BitVec.toNat_ofNat, Nat.mod_eq_of_lt (by omega)]
    exact hlt
  · exact Conduit.mem_slots.mp h

theorem Conduit.firstFree_spec (h : c.firstFree = some i) : i.toNat < c.slotCount ∧ c.slotState i = .free :=
  ⟨Conduit.mem_candidates (List.mem_of_find?_eq_some h), by simpa using List.find?_some h⟩

/-! ## Tables that shrink, tables without used slots, and the opening of a FREE slot -/

/-- A table that uses no slot is sound. -/
theorem ConduitSound.of_unused (h : c.usedSlots = []) : ConduitSound s c := by
  have hm (i) : i ∉ c.usedSlots := by rw [h]; exact List.not_mem_nil
  have hr : c.ready = [] := List.eq_nil_iff_forall_not_mem.mpr fun i hi =>
    hm i (Conduit.mem_usedSlots.mpr (.inr (.inr (.inl hi))))
  have hv : c.visible = [] := List.eq_nil_iff_forall_not_mem.mpr fun i hi =>
    hm i (Conduit.mem_usedSlots.mpr (.inr (.inr (.inr hi))))
  exact ⟨fun _ => h, by rw [h]; exact List.nodup_nil, fun i hi => absurd hi (hm i), fun hn => absurd hr hn,
    fun _ => by rw [hr, hv]; decide⟩

/-- A sound table stays sound where its slots are used at most as often as before. -/
theorem ConduitSound.shrink (h : ConduitSound s c) (he : d.enabled = c.enabled) (hn : d.slotCount = c.slotCount)
    (hu : ∀ i, d.usedSlots.count i ≤ c.usedSlots.count i) (gates : d.ready ≠ [] → gated s d = true)
    (latest : d.isLatest = true → d.visible.length ≤ 1 ∧ d.ready.length ≤ 1) : ConduitSound s d := by
  have hmem (i) (hi : i ∈ d.usedSlots) : i ∈ c.usedSlots :=
    List.count_pos_iff.mp (Nat.lt_of_lt_of_le (List.count_pos_iff.mpr hi) (hu i))
  refine ⟨fun hd => ?_, ?_, fun i hi => ?_, gates, latest⟩
  · refine List.eq_nil_iff_forall_not_mem.mpr fun i hi => ?_
    have := hmem i hi
    rw [h.idle (he ▸ hd)] at this
    exact List.not_mem_nil this
  · exact List.nodup_iff_count_le_one.mpr fun i => (hu i).trans (List.nodup_iff_count_le_one.mp h.distinct i)
  · rw [hn]; exact h.bounded i (hmem i hi)

/-- Soundness reads the cadences only for the gates. -/
theorem ConduitSound.congr (h : ConduitSound s c) (hg : c.ready ≠ [] → gated s c = true → gated t c = true) :
    ConduitSound t c :=
  ⟨h.idle, h.distinct, h.bounded, fun hr => hg hr (h.gates hr), h.latest⟩

/-- A table with a used slot is enabled (R85). -/
theorem ConduitSound.enabled (h : ConduitSound s c) (hi : i ∈ c.usedSlots) : c.enabled = true := by
  cases he : c.enabled with
  | true => rfl
  | false => rw [h.idle he] at hi; exact absurd hi List.not_mem_nil

/-- OPEN_WRITE of a FREE slot (R94, R96, R99). -/
theorem ConduitSound.openWrite (h : ConduitSound s c) (he : c.enabled = true) (hi : i.toNat < c.slotCount)
    (hf : c.slotState i = .free) : ConduitSound s { c with filling := some i, cursor := i } := by
  have hi' : i ∉ c.usedSlots := Conduit.slotState_eq_free_iff.mp hf
  have hsub : (c.reading.toList ++ (c.ready ++ c.visible)).Sublist c.usedSlots := List.sublist_append_right _ _
  refine ⟨fun hd => absurd he (by simp [show c.enabled = false from hd]), ?_, fun j hj => ?_, h.gates, h.latest⟩
  · exact List.nodup_cons.mpr ⟨fun hm => hi' (hsub.mem hm), h.distinct.sublist hsub⟩
  · rcases List.mem_cons.mp hj with rfl | hm
    · exact hi
    · exact h.bounded j (hsub.mem hm)

/-! ## The other operations on one conduit -/

theorem Conduit.count_usedSlots (c : Conduit) (i : BitVec 3) : c.usedSlots.count i =
    c.filling.toList.count i + (c.reading.toList.count i + (c.ready.count i + c.visible.count i)) := by
  simp only [Conduit.usedSlots, List.count_append]

/-- COMMIT (R92, R93, R99). -/
theorem ConduitSound.committed (h : ConduitSound s c) (hf : c.filling = some i) (e : Descriptor) :
    ConduitSound s (c.committed i e (gated s c)) := by
  have hlatest := h.latest
  have hgates := h.gates
  refine h.shrink rfl rfl (fun j => ?_) ?_ ?_
  · simp only [Conduit.count_usedSlots, Conduit.committed, hf, Option.toList_none, Option.toList_some, List.count_nil,
      apply_ite (List.count j), List.count_append]
    repeat' split
    all_goals omega
  · show (if gated s c = true then if c.isLatest = true then [i] else c.ready ++ [i] else c.ready) ≠ [] → gated s c = true
    split
    case isTrue g => exact fun _ => g
    case isFalse => exact hgates
  · intro hl
    obtain ⟨hv, hr⟩ := hlatest hl
    have hl : c.isLatest = true := hl
    simp only [Conduit.committed, hl, if_true]
    split
    · exact ⟨hv, Nat.le_refl 1⟩
    · exact ⟨Nat.le_refl 1, hr⟩

/-- ABANDON, and the revocation of a producer (R94, R107). -/
theorem ConduitSound.unfilled (h : ConduitSound s c) : ConduitSound s { c with filling := none } :=
  h.shrink rfl rfl (fun j => by simp only [Conduit.count_usedSlots, Option.toList_none, List.count_nil]; omega) h.gates
    h.latest

/-- The READING slot becomes FREE (R95, R101). -/
theorem ConduitSound.unread (h : ConduitSound s c) : ConduitSound s { c with reading := none } :=
  h.shrink rfl rfl (fun j => by simp only [Conduit.count_usedSlots, Option.toList_none, List.count_nil]; omega) h.gates
    h.latest

/-- The READING slot is given back (R97, R101). -/
theorem ConduitSound.givenBack (h : ConduitSound s c) (hr : c.reading = some i) : ConduitSound s (c.givenBack i).1 := by
  unfold Conduit.givenBack
  split
  · exact h.unread
  · rename_i hg
    refine h.shrink rfl rfl (fun j => ?_) h.gates fun hl => ?_
    · simp only [Conduit.count_usedSlots, hr, Option.toList_none, Option.toList_some, List.count_nil, List.count_cons]
      omega
    · have hl : c.isLatest = true := hl
      simp only [hl, Bool.true_and, Bool.not_eq_true', Bool.not_eq_false, Bool.and_eq_true, List.isEmpty_iff] at hg
      obtain ⟨hv, hy⟩ := hg
      simp [hv, hy]

/-- OPEN_READ of the head of the visible list (R95, R97, R100). -/
theorem ConduitSound.openRead (h : ConduitSound s c) {rest : List (BitVec 3)} (hv : c.visible = i :: rest)
    (l : Option (BitVec 16)) :
    ConduitSound s { c with visible := rest, reading := some i, lastOpened := l } := by
  refine h.shrink rfl rfl (fun j => ?_) h.gates fun hl => ?_
  · simp only [Conduit.count_usedSlots, hv, Option.toList_some, List.count_cons, List.count_nil]
    omega
  · obtain ⟨h1, h2⟩ := h.latest hl
    rw [hv, List.length_cons] at h1
    exact ⟨by show rest.length ≤ 1; omega, h2⟩

/-- Revocation of a port (R107). -/
theorem ConduitSound.revoked (h : ConduitSound s c) (x : Port) : ConduitSound s (c.revoked x) := by
  unfold Conduit.revoked
  split
  · exact h.unfilled
  · split
    · exact h
    · rename_i i hr
      split
      · rename_i hm
        by_cases he : c.visible = [] ∧ c.ready = []
        · rw [if_pos he]
          refine h.shrink rfl rfl (fun j => ?_) h.gates fun _ => ⟨Nat.le_refl 1, by show c.ready.length ≤ 1; simp [he.2]⟩
          simp only [Conduit.count_usedSlots, hr, Option.toList_none, Option.toList_some, List.count_nil]
          omega
        · rw [if_neg he]
          exact h.unread
      · rename_i hm
        refine h.shrink rfl rfl (fun j => ?_) h.gates fun hl => absurd (beq_iff_eq.mp hl) hm
        simp only [Conduit.count_usedSlots, hr, Option.toList_none, Option.toList_some, List.count_nil, List.count_cons]
        omega

/-- A flush, whatever the gates are after it (R105, R106). -/
theorem ConduitSound.flushed (h : ConduitSound s c) : ConduitSound t c.flushed := by
  have hs : ConduitSound s c.flushed := by
    refine h.shrink rfl rfl (fun j => ?_) (fun hr => absurd rfl hr) fun hl => ?_
    · simp only [Conduit.count_usedSlots, Conduit.flushed, List.count_nil, apply_ite (List.count j), List.count_append]
      repeat' split
      all_goals omega
    · obtain ⟨h1, h2⟩ := h.latest hl
      have hm : c.mode = 1 := beq_iff_eq.mp hl
      simp only [Conduit.flushed, hm, if_true]
      split
      · exact ⟨h1, Nat.zero_le 1⟩
      · exact ⟨h2, Nat.zero_le 1⟩
  exact hs.congr fun hr => absurd rfl hr

/-- A configuration write of a disabled conduit (R72). -/
theorem ConduitSound.configure (h : ConduitSound s c) (he : c.enabled = false) (r : CfgReg) (w : Word) :
    ConduitSound s (c.configure r w) := by
  have hu : (c.configure r w).usedSlots = c.usedSlots := by cases r <;> rfl
  exact .of_unused (hu.trans (h.idle he))

end Sys2Proof.Machine
end

section
/-! The lock and the bridge reset (R17, R173): each step as the update it is, the flushes among them idle since every
conduit is already disabled, and the reset notices as the conduits found in flight. -/

namespace Sys2Proof.Machine

-- Elaborates the proofs in order, none beside the tests' kernel evaluations: each that waits there costs a thread's memory.
set_option deprecated.oldSectionVars true

variable {s t u : State} {x : Port}

/-! ## Performed register writes -/

/-- A register write past its checks, by a row whose request spells the word `w`. -/
theorem performs_write (h : Takes x s) {c : Instr} {r : Reg} {v w : Word}
    (hc : c.request = some (solo x, writeTo r v)) (hv : v = w) (hw : writerOf r ≠ .readOnly)
    (hr : writeRefusal s x r w = none) (hu : regWrite x r w s = u) : Performs c x 0 s u := by
  subst hv
  unfold Performs
  rw [exec_request hc, present_write h hw hr, hu]

/-- A write by the steward to a register that is not locked. -/
theorem performs_write_steward (h : Takes .A s) {c : Instr} {r : Reg} {v w : Word}
    (hc : c.request = some (solo .A, writeTo r v)) (hv : v = w) (hw : writerOf r ≠ .readOnly)
    (hl : inLockedSet r = false) (hr : r ≠ .cutoffControl) (hu : regWrite .A r w s = u) : Performs c .A 0 s u := by
  have hb : configBusy s r = false := by cases r <;> cases hl <;> rfl
  exact performs_write h hc hv hw (writeRefusal_steward hl hr hb) hu

/-! ## Folds over tables -/

/-- Distinct entries updated one after the other. -/
theorem Table.get_foldl_map {n : Nat} {α : Type} (F : α → α) (l : List (BitVec n)) (hl : l.Nodup) (t : Table n α)
    (j : BitVec n) :
    (l.foldl (fun t i => t.map i F) t).get j = if j ∈ l then F (t.get j) else t.get j := by
  induction l generalizing t with
  | nil => simp
  | cons i l ih =>
    obtain ⟨hi, hl⟩ := List.nodup_cons.mp hl
    rw [List.foldl_cons, ih hl, Table.get_map]
    by_cases e : j = i
    · subst e; simp [hi]
    · simp [e]

theorem foldl_mapConduit (F : Conduit → Conduit) (l : List (BitVec 4)) (s : State) :
    l.foldl (fun s n => s.mapConduit n F) s = { s with conduits := l.foldl (fun t n => t.map n F) s.conduits } := by
  induction l generalizing s with
  | nil => rfl
  | cons n l ih => exact ih (s.mapConduit n F)

theorem foldl_mapCadence (F : Cadence → Cadence) (l : List (BitVec 2)) (s : State) :
    l.foldl (fun s n => s.mapCadence n F) s = { s with cadences := l.foldl (fun t n => t.map n F) s.cadences } := by
  induction l generalizing s with
  | nil => rfl
  | cons n l ih => exact ih (s.mapCadence n F)

theorem foldl_mapCapture (F : Capture → Capture) (l : List (BitVec 2)) (s : State) :
    l.foldl (fun s n => s.mapCapture n F) s = { s with captures := l.foldl (fun t n => t.map n F) s.captures } := by
  induction l generalizing s with
  | nil => rfl
  | cons n l ih => exact ih (s.mapCapture n F)

theorem nodup_four : four.Nodup := by decide

/-! ## The steps of a bridge reset -/

/-- A conduit after step 1 (R85, R173). -/
def Conduit.initialised (c : Conduit) : Conduit := { c.disabled with seq := 0, configError := 0 }

theorem resetConduits_eq (s : State) : ∃ t : Table 4 Conduit,
    (∀ n, t.get n = (s.conduit n).initialised) ∧ resetConduits s = { s with conduits := t } :=
  ⟨_, fun n => (Table.get_foldl_map Conduit.initialised sixteen nodup_sixteen s.conduits n).trans (if_pos (mem_sixteen n)),
    foldl_mapConduit Conduit.initialised sixteen s⟩

/-- Where every conduit is disabled a flush changes nothing. -/
theorem Flushed.eq_of_disabled {A : BitVec 2 → Prop} (h : Flushed A s t) (hd : ∀ n, (s.conduit n).enabled = false) :
    t = s := by
  have hn (n) : ¬ ((s.conduit n).enabled = true ∧ (s.conduit n).timed = true ∧ A (s.conduit n).cadence) := by simp [hd n]
  have hconduits : t.conduits = s.conduits := Table.ext fun n => h.other n (hn n)
  have hbank (y) : t.bank y = s.bank y := by
    have hnotice : (t.bank y).conduits.commitNotice = (s.bank y).conduits.commitNotice :=
      eq_of_flags_iff fun n => (h.notice y n).trans (by simp [hd n])
    have hfresh : (t.bank y).fresh.commit = (s.bank y).fresh.commit :=
      eq_of_flags_iff fun n => (h.fresh y n).trans (by simp [hd n])
    rw [h.banks y, hnotice, hfresh]
  have hbanks : t.banks = s.banks := by
    show PerPort.mk (t.bank .A) (t.bank .B) = PerPort.mk (s.bank .A) (s.bank .B)
    rw [hbank, hbank]
  rw [h.rest, hconduits, hbanks]

/-- A cadence after step 8: halted, its sticky flags 0 (R173). -/
def Cadence.quieted (c : Cadence) : Cadence :=
  { c.halted with cmdErr := false, late := false, overlap := false, ackOverrun := false, freshOverlap := false
                  freshAckOverrun := false }

theorem Cadence.halted_quieted (c : Cadence) : c.quieted.halted = c.quieted := by
  have h : ¬ c.quieted.Live := fun h => by
    have := c.halted_live ▸ (Cadence.live_iff c.quieted).mpr h
    exact Bool.noConfusion this
  show ({ c.quieted with state := if c.quieted.Live then .stopped else c.quieted.state, pulse := .off } : Cadence) = _
  rw [if_neg h]
  rfl

theorem resetCadences_eq (hd : ∀ n, (s.conduit n).enabled = false) : ∃ t : Table 2 Cadence,
    (∀ k, t.get k = (s.cadence k).quieted) ∧
    resetCadences s = { s with cadences := t, timebase := { s.timebase with loadRefused := false } } := by
  obtain ⟨hget, hflush⟩ := haltAll_flushed s
  let clear (c : Cadence) : Cadence :=
    { c with cmdErr := false, late := false, overlap := false, ackOverrun := false, freshOverlap := false
             freshAckOverrun := false }
  unfold resetCadences
  generalize endPulses (four.foldl (fun s k => haltCadence k s) s) = u at hget hflush ⊢
  have heq := hflush.eq_of_disabled hd
  refine ⟨four.foldl (fun t n => t.map n clear) u.cadences, fun k => ?_, ?_⟩
  · rw [Table.get_foldl_map clear four nodup_four, if_pos (mem_four k)]
    exact congrArg clear (hget k)
  · show ({ four.foldl (fun s k => s.mapCadence k clear) u with timebase := _ } : State) = _
    rw [foldl_mapCadence clear four u, heq]

theorem resetCaptures_eq (s : State) : ∃ t : Table 2 Capture,
    (∀ k, t.get k = (s.capture k).emptied) ∧ resetCaptures s = { s with captures := t } :=
  ⟨_, fun k => (Table.get_foldl_map Capture.emptied four nodup_four s.captures k).trans (if_pos (mem_four k)),
    foldl_mapCapture Capture.emptied four s⟩

/-- The cutoff unit after step 10. -/
def Cutoff.restarted (c : Cutoff) : Cutoff :=
  { c with active := c.pinDemand, cause := if c.pinDemand then .pin else .nothing, clearRefused := false }

theorem resetCutoff_eq (hd : ∀ n, (s.conduit n).enabled = false) (hq : ∀ k, (s.cadence k).halted = s.cadence k) :
    resetCutoff s = { s with cutoff := s.cutoff.restarted } := by
  let normal : State := { s with cutoff := { s.cutoff with active := false, cause := .nothing, clearRefused := false } }
  show (if s.cutoff.pinDemand then enterCutoff .pin normal else normal) = _
  cases hp : s.cutoff.pinDemand with
  | true =>
    obtain ⟨hget, hflush⟩ := enterCutoff_flushed .pin normal
    simp only [if_true]
    generalize enterCutoff .pin normal = u at hget hflush ⊢
    have hcads : u.cadences = s.cadences := Table.ext fun k => (hget k).trans (hq k)
    rw [hflush.eq_of_disabled hd, hcads, Cutoff.restarted, hp]
    rfl
  | false =>
    rw [Cutoff.restarted, hp]
    rfl

/-! ## The notices of step 11 -/

theorem getLsbD_foldl_oneHot (l : List (BitVec 4)) (v : BitVec 16) (n : BitVec 4) :
    (l.foldl (fun v c => v ||| oneHot c) v).getLsbD n.toNat = true ↔ v.getLsbD n.toNat = true ∨ n ∈ l := by
  induction l generalizing v with
  | nil => simp
  | cons c l ih =>
    rw [List.foldl_cons, ih, BitVec.getLsbD_or, Bool.or_eq_true, oneHot_getLsbD, List.mem_cons, or_assoc]

/-- A bank with the conduits of `l` noted in RESET_NOTICE (R85). -/
def Bank.noteResets (l : List (BitVec 4)) (b : Bank) : Bank :=
  { b with
    conduits := { b.conduits with resetNotice := l.foldl (fun v c => v ||| oneHot c) b.conduits.resetNotice }
    fresh := { b.fresh with reset := l.foldl (fun v c => v ||| oneHot c) b.fresh.reset } }

theorem foldl_noteReset (l : List (BitVec 4)) (s : State) :
    l.foldl (fun s n => (s.noteReset .A n).noteReset .B n) s = s.mapBoth (Bank.noteResets l) := by
  induction l generalizing s with
  | nil => rfl
  | cons n l ih => exact ih ((s.noteReset .A n).noteReset .B n)

theorem mem_inFlightConduits (s : State) (n : BitVec 4) : n ∈ inFlightConduits s ↔
    (s.conduit n).enabled = true ∧ ∃ i : BitVec 3, i.toNat < (s.conduit n).slotCount ∧ (s.conduit n).slotState i ≠ .free := by
  unfold inFlightConduits Conduit.inFlight
  rw [List.mem_filter, Bool.and_eq_true, List.any_eq_true]
  simp only [mem_sixteen, true_and, Conduit.mem_slots, bne_iff_ne]

/-! ## The eleven steps together -/

/-- A bank after steps 3 to 7 and 9 (R173): as after a port reset, but for the cause. -/
def Bank.bridgeReset (b : Bank) : Bank := { b.portReset with monitor := b.monitor.revived .nothing }

theorem bridgeReset_eq (s : State) : ∃ (conduits : Table 4 Conduit) (cadences : Table 2 Cadence) (captures : Table 2 Capture),
    (∀ n, conduits.get n = (s.conduit n).initialised) ∧ (∀ k, cadences.get k = (s.cadence k).quieted) ∧
    (∀ k, captures.get k = (s.capture k).emptied) ∧
    bridgeReset s =
      { s with
        banks := { a := (s.bank .A).bridgeReset.noteResets (inFlightConduits s)
                   b := (s.bank .B).bridgeReset.noteResets (inFlightConduits s) }
        conduits := conduits, tokens := Table.all 4 Token.reset
        timebase := { s.timebase with loadRefused := false }, cadences := cadences, cutoff := s.cutoff.restarted
        captures := captures } := by
  obtain ⟨conduits, hconduits, econduits⟩ := resetConduits_eq s
  have hd (n) : (conduits.get n).enabled = false := by rw [hconduits n]; rfl
  let banks (y : Port) : Bank :=
    { (s.bank y).clearNotices.clearBells.clearRecords.clearEvents with view := (s.bank y).view.withSweep }
  let disarmed : State :=
    { s with banks := { a := banks .A, b := banks .B }, conduits := conduits, tokens := Table.all 4 Token.reset }
  have hdisarmed : requestSweep .B (requestSweep .A ((resetTokens { s with conduits := conduits }).mapBoth fun b =>
      b.clearNotices.clearBells.clearRecords.clearEvents)) = disarmed := by
    rw [requestSweep_eq, requestSweep_eq]
    simp only [State.mapBoth, State.mapView, State.mapBank, PerPort.map, PerPort.get, PerPort.set]
    rfl
  obtain ⟨cadences, hcadences, ecadences⟩ := resetCadences_eq (s := disarmed) hd
  obtain ⟨captures, hcaptures, ecaptures⟩ := resetCaptures_eq
    { disarmed with cadences := cadences, timebase := { s.timebase with loadRefused := false } }
  have hk (k) : (cadences.get k).halted = cadences.get k := by rw [hcadences k]; exact Cadence.halted_quieted _
  refine ⟨conduits, cadences, captures, hconduits, hcadences, hcaptures, ?_⟩
  simp only [bridgeReset, foldl_noteReset, econduits, hdisarmed, ecadences]
  rw [ecaptures, resetCutoff_eq (by exact hd) (by exact hk)]
  rfl

/-! ## The commands -/

theorem writeBridgeControl_lock {w : Word} (h1 : bit w 1 = true) (h0 : bit w 0 = false) (s : State) :
    writeBridgeControl w s = { s with configLock := true } := by
  simp [writeBridgeControl, h1, h0]

theorem writeBridgeControl_reset {w : Word} (h0 : bit w 0 = true) (s : State) :
    writeBridgeControl w s = bridgeReset { s with configLock := s.configLock || bit w 1 } := by
  simp only [writeBridgeControl, h0, if_true, lockBit_eq]

/-- Port `y`'s bank after a bridge reset that noted the conduits of `l`. -/
theorem noteResets_bridgeReset_resetNotice (b : Bank) (l : List (BitVec 4)) (n : BitVec 4) :
    (b.bridgeReset.noteResets l).conduits.resetNotice.getLsbD n.toNat = true ↔ n ∈ l := by
  refine (getLsbD_foldl_oneHot l 0 n).trans ?_
  simp

/-- Settles O52: the eleven steps together, read off item by item. -/
theorem lockAndBridgeReset : Obligations.LockAndBridgeReset := by
  intro w s h
  refine ⟨fun hl => ?lock, fun hr => ?reset⟩
  case lock =>
    obtain ⟨h1, h0⟩ : bit w 1 = true ∧ bit w 0 = false := by simpa [Instr.wellFormed] using hl
    exact performs_write_steward h (r := .bridgeControl) rfl (fixedWord_2_1 h1 h0) Writer.noConfusion rfl Reg.noConfusion
      (writeBridgeControl_lock h1 h0 s)
  case reset =>
    have h0 : bit w 0 = true := hr
    obtain ⟨conduits, cadences, captures, hconduits, hcadences, hcaptures, e⟩ :=
      bridgeReset_eq { s with configLock := s.configLock || bit w 1 }
    have hbank (y : Port) : (bridgeReset { s with configLock := s.configLock || bit w 1 }).bank y =
        (s.bank y).bridgeReset.noteResets (inFlightConduits s) := by rw [e]; cases y <;> rfl
    refine ⟨_, performs_write_steward h (r := .bridgeControl) rfl (fixedWord_1_0 h0) Writer.noConfusion rfl
      Reg.noConfusion (writeBridgeControl_reset h0 s), by rw [e]; rfl, fun n => ?_, fun k => ?_, fun k => ?_, fun k => ?_,
      by rw [e]; rfl, by rw [e], fun y => ?_, by rw [e]⟩
    · rw [e]; exact hconduits n
    · rw [e]; exact Table.get_all 4 Token.reset k
    · rw [e]; exact hcadences k
    · rw [e]; exact hcaptures k
    · simp only [hbank y]
      exact ⟨rfl, rfl, rfl, rfl,
        fun n => (noteResets_bridgeReset_resetNotice _ _ n).trans (mem_inFlightConduits s n), rfl, rfl, rfl, rfl, rfl, rfl⟩

end Sys2Proof.Machine
end

section
/-! The invariants of the tokens, the cadences and the conduits: what each group of operations does to the three, then
each invariant as a block invariant (R74, R77, R93, R99, R110, R117, R142, R145, R148, R152). -/

namespace Sys2Proof.Machine

-- Elaborates the proofs in order, none beside the tests' kernel evaluations: each that waits there costs a thread's memory.
set_option deprecated.oldSectionVars true

variable {s t u : State} {x : Port} {n : BitVec 4}

/-! ## Work on one conduit -/

/-- From `s` to `t` only the banks, the captures and one conduit change, and its slot table stays sound. -/
def OneConduit (s t : State) : Prop :=
  ∃ (n : BitVec 4) (d : Conduit) (caps : Table 2 Capture),
    t.unbanked = State.unbanked { s.mapConduit n fun _ => d with captures := caps } ∧
    (ConduitSound s (s.conduit n) → ConduitSound s d)

theorem OneConduit.none (h : t.unbanked = s.unbanked) : OneConduit s t := by
  refine ⟨0, s.conduit 0, s.captures, ?_, id⟩
  have e : s.conduits.map 0 (fun _ => s.conduit 0) = s.conduits := Table.map_eq_self rfl
  rw [h]
  exact congrArg (fun c => State.unbanked { s with conduits := c }) e.symm

/-- One conduit updated by `f`, the rest in the banks. -/
theorem OneConduit.one {f : Conduit → Conduit} (h : t.unbanked = (s.mapConduit n f).unbanked)
    (hs : ConduitSound s (s.conduit n) → ConduitSound s (f (s.conduit n))) : OneConduit s t :=
  ⟨n, f (s.conduit n), s.captures, h, hs⟩

theorem oneConduit_writeCfg (r : CfgReg) (w : Word) (he : (s.conduit n).enabled = false) :
    OneConduit s (writeCfg r n w s) := .one rfl fun h => h.configure he r w

theorem oneConduit_enableConduit (n : BitVec 4) (s : State) : OneConduit s (enableConduit n s) := by
  refine .one rfl fun h => ?_
  split
  case isTrue => exact h
  case isFalse he =>
    split
    case h_1 e _ =>
      exact .of_unused (show (s.conduit n).usedSlots = [] from h.idle (Bool.eq_false_iff.mpr he))
    case h_2 => exact .of_unused rfl

theorem oneConduit_disableConduit (n : BitVec 4) (s : State) : OneConduit s (disableConduit n s) := by
  simp only [disableConduit]
  split
  · exact .none rfl
  · split
    · exact .one ((unbanked_noteReset _ .B n).trans (unbanked_noteReset _ .A n)) fun _ => .of_unused rfl
    · exact .one rfl fun _ => .of_unused rfl

theorem conduitRefusal_none {op : BitVec 4} {len : BitVec 11} (h : conduitRefusal s x op n len = none) :
    (s.conduit n).enabled = true := by
  cases he : (s.conduit n).enabled with
  | true => rfl
  | false =>
    simp only [conduitRefusal, he, Bool.not_false, if_true] at h
    split at h <;> cases h

theorem oneConduit_openWriteEffect (he : (s.conduit n).enabled = true) : OneConduit s (openWriteEffect x n s) := by
  simp only [openWriteEffect]
  split
  · exact .none (by simp)
  · rename_i i hi
    obtain ⟨hlt, hfree⟩ := Conduit.firstFree_spec hi
    exact .one ((unbanked_setConduitResult ..).trans (unbanked_setSlotInfo ..)) fun h => h.openWrite he hlt hfree

theorem oneConduit_commitEffect (x : Port) (n : BitVec 4) (len : BitVec 11) (s : State) :
    OneConduit s (commitEffect x n len s) := by
  simp only [commitEffect]
  split
  · exact .none rfl
  · rename_i i hi
    let d : Descriptor := { seq := (s.conduit n).seq + 1, length := len, time := s.time }
    let c := (s.conduit n).committed i d (gated s (s.conduit n))
    have hbank (v : State) (hv : v.unbanked = (s.mapConduit n fun _ => c).unbanked) : OneConduit s (captureFromCommit n s.time v) := by
      rw [captureFromCommit, (captureWhere_eq _ s.time v).2]
      generalize (captureWhere _ s.time v).captures = caps
      exact ⟨n, c, caps, congrArg (fun r : State × (Port → Bool) => ({ r.1 with captures := caps }, r.2)) hv,
        fun h => h.committed hi d⟩
    have hdone : (((s.mapConduit n (·.committed i d (gated s (s.conduit n)))).setSlotInfo x d).setConduitResult x .done n 2
        i).unbanked = (s.mapConduit n fun _ => c).unbanked :=
      (unbanked_setConduitResult ..).trans (unbanked_setSlotInfo ..)
    refine hbank _ ?_
    split
    · exact hdone
    · exact (unbanked_noteCommit ..).trans hdone

theorem oneConduit_abandonEffect (x : Port) (n : BitVec 4) (s : State) : OneConduit s (abandonEffect x n s) := by
  unfold abandonEffect
  split
  · exact .none rfl
  · exact .one (unbanked_setConduitResult ..) fun h => h.unfilled

theorem oneConduit_openReadEffect (x : Port) (n : BitVec 4) (s : State) : OneConduit s (openReadEffect x n s) := by
  simp only [openReadEffect]
  split
  · exact .none (by simp)
  · rename_i i rest hv
    exact .one ((unbanked_setConduitResult ..).trans (unbanked_setSlotInfo ..)) fun h => h.openRead hv _

theorem oneConduit_releaseEffect (x : Port) (n : BitVec 4) (s : State) : OneConduit s (releaseEffect x n s) := by
  simp only [releaseEffect]
  split
  · exact .none rfl
  · rename_i i hr
    split
    · exact .one (unbanked_setConduitResult ..) fun h => h.givenBack hr
    · exact .one ((unbanked_noteDrain ..).trans (unbanked_setConduitResult ..)) fun h => h.unread

theorem oneConduit_returnEffect (x : Port) (n : BitVec 4) (s : State) : OneConduit s (returnEffect x n s) := by
  unfold returnEffect
  split
  · exact .none rfl
  · rename_i i hr
    exact .one (unbanked_setConduitResult ..) fun h => h.givenBack hr

theorem oneConduit_conduitCommand (x : Port) (w : Word) (s : State) : OneConduit s (conduitCommand x w s) := by
  simp only [conduitCommand]
  split
  · exact .none (by simp)
  · rename_i hr
    split
    · exact oneConduit_openWriteEffect (conduitRefusal_none hr)
    · split
      · exact oneConduit_commitEffect ..
      · split
        · exact oneConduit_abandonEffect ..
        · split
          · exact oneConduit_openReadEffect ..
          · split
            · exact oneConduit_releaseEffect ..
            · exact oneConduit_returnEffect ..

/-! ## Work on the cadences, with its flushes -/

/-- From `s` to `t` the cadences, cutoff, captures and banks change, and the conduits of those cadences that no longer live
are flushed. -/
def CadenceFlush (s t : State) : Prop :=
  ∃ (cads : Table 2 Cadence) (cut : Cutoff) (caps : Table 2 Capture) (sel : BitVec 2 → Prop) (u : State),
    u.unbanked = State.unbanked { s with cadences := cads, cutoff := cut, captures := caps } ∧ Flushed sel u t ∧
    ∀ k, (s.cadence k).live = true → ¬ sel k → (cads.get k).live = true

/-- One cadence changed without a flush: a live one stays live. -/
theorem cadenceFlush_mapCadence {k : BitVec 2} {f : Cadence → Cadence}
    (hf : (s.cadence k).live = true → (f (s.cadence k)).live = true) : CadenceFlush s (s.mapCadence k f) := by
  refine ⟨s.cadences.map k f, s.cutoff, s.captures, fun _ => False, _, rfl, .nothing (fun _ h => h) _, fun j hj _ => ?_⟩
  rw [Table.get_map]
  split
  case isTrue e => subst e; exact hf hj
  case isFalse => exact hj

theorem cadenceFlush_stopCadence (k : BitVec 2) (s : State) : CadenceFlush s (stopCadence k s) := by
  by_cases h : (s.cadence k).Live
  · exact ⟨_, s.cutoff, s.captures, (· = k), _, rfl, stopCadence_live h, fun j hj hne => by
      rw [Table.get_map_ne _ _ hne]; exact hj⟩
  · rw [stopCadence_not_live h]
    exact ⟨s.cadences, s.cutoff, s.captures, fun _ => False, s, rfl, .nothing (fun _ h => h) s, fun _ hj _ => hj⟩

theorem cadenceFlush_armCadence (k : BitVec 2) (s : State) : CadenceFlush s (armCadence k s) := by
  unfold armCadence
  split
  · exact cadenceFlush_mapCadence fun _ => rfl
  · exact cadenceFlush_mapCadence id

theorem cadenceFlush_enterCutoff (cause : CutoffCause) (s : State) : CadenceFlush s (enterCutoff cause s) :=
  ⟨_, _, s.captures, _, _, rfl, (enterCutoff_flushed cause s).2, fun _ hk hne =>
    absurd ((Cadence.live_iff _).mp hk) hne⟩

theorem cadenceFlush_cadenceTurn (k : BitVec 2) (s : State) : CadenceFlush s (cadenceTurn k s) := by
  by_cases h : (s.cadence k).Live ∧ (s.cadence k).next = s.timebase.time
  · obtain ⟨caps, -, hf⟩ := cadenceTick_flushed k s
    rw [cadenceTurn_due h]
    refine ⟨s.cadences.map k Cadence.ticked, s.cutoff, caps, (· = k), _, ?_, hf, fun j hj hne => by
      rw [Table.get_map_ne _ _ hne]; exact hj⟩
    exact congrArg (fun r : State × (Port → Bool) =>
      ({ r.1 with captures := caps, cadences := s.cadences.map k Cadence.ticked }, r.2))
      ((unbanked_latch (s.latch .A (7 + k.setWidth 4)) .B (7 + k.setWidth 4)).trans (unbanked_latch s .A _))
  · rw [cadenceTurn_not_due h]
    exact cadenceFlush_mapCadence id

/-! ## One token -/

theorem Port.eq_or_eq_other (y x : Port) : y = x ∨ y = x.other := by cases y <;> cases x <;> decide

/-- One token of a state with the ACTIVE ports `active` (R110, R117). -/
def TokenSound (active : Port → Bool) (k : Token) : Prop :=
  (∀ x, k.wait.get x = true → k.holder = some x.other) ∧
  ∀ x, active x = false → k.holder ≠ some x ∧ k.wait.get x = false

theorem tokensSound_iff : s.TokensSound ↔ ∀ n, TokenSound s.isActive (s.token n) :=
  ⟨fun h n => ⟨h.waits n, h.absent n⟩, fun h => ⟨fun n => (h n).1, fun n => (h n).2⟩⟩

variable {a b : Port → Bool} {k : Token}

theorem tokenSound_reset : TokenSound a Token.reset := by
  refine ⟨fun x h => ?_, fun x _ => ⟨fun h => (nomatch h), ?_⟩⟩
  · cases x <;> cases h
  · cases x <;> rfl

/-- More ACTIVE ports ask less. -/
theorem TokenSound.mono (h : TokenSound a k) (hab : ∀ x, b x = false → a x = false) : TokenSound b k :=
  ⟨h.1, fun x hx => h.2 x (hab x hx)⟩

theorem TokenSound.wait_eq_false (h : TokenSound a k) {y : Port} (hk : k.holder ≠ some y.other) : k.wait.get y = false :=
  Bool.eq_false_iff.mpr fun hy => hk (h.1 y hy)

theorem TokenSound.active_of_wait (h : TokenSound a k) {y : Port} (hy : k.wait.get y = true) : a y = true := by
  cases ha : a y with
  | true => rfl
  | false => rw [(h.2 y ha).2] at hy; cases hy

/-- The end of a wait (R114). -/
theorem TokenSound.unwaiting (h : TokenSound a k) (x : Port) : TokenSound a { k with wait := k.wait.set x false } := by
  refine ⟨fun y hy => ?_, fun y hy => ⟨(h.2 y hy).1, ?_⟩⟩
  · by_cases e : y = x
    · subst e; rw [PerPort.get_set_same] at hy; cases hy
    · rw [PerPort.get_set_ne _ _ e] at hy; exact h.1 y hy
  · by_cases e : y = x
    · subst e; exact PerPort.get_set_same _ _ _
    · rw [PerPort.get_set_ne _ _ e]; exact (h.2 y hy).2

/-- A free token taken by an ACTIVE port (R112). -/
theorem TokenSound.taken (h : TokenSound a k) (hk : k.holder = none) (hx : a x = true) :
    TokenSound a { k with holder := some x } := by
  have hw (y : Port) : k.wait.get y = false := h.wait_eq_false (by rw [hk]; exact fun e => nomatch e)
  refine ⟨fun y hy => absurd hy (by rw [hw y]; decide), fun y hy => ⟨fun e => ?_, hw y⟩⟩
  rw [← Option.some.inj e, hx] at hy; cases hy

/-- An ACTIVE port waits for its partner's token (R112). -/
theorem TokenSound.waiting (h : TokenSound a k) (hk : k.holder = some x.other) (hx : a x = true) :
    TokenSound a { k with wait := k.wait.set x true } := by
  refine ⟨fun y hy => ?_, fun y hy => ⟨(h.2 y hy).1, ?_⟩⟩
  · by_cases e : y = x
    · rw [e]; exact hk
    · rw [PerPort.get_set_ne _ _ e] at hy; exact h.1 y hy
  · have e : y ≠ x := fun e => by rw [e, hx] at hy; cases hy
    rw [PerPort.get_set_ne _ _ e]; exact (h.2 y hy).2

/-- The holder's release: nobody waits after it, and the new holder had waited (R113). -/
theorem TokenSound.passed (h : TokenSound a k) {y : Port} (hk : k.holder = some y) : TokenSound a (k.passed y) := by
  have hy : k.wait.get y = false := h.wait_eq_false (by rw [hk]; exact fun e => Port.ne_other y (Option.some.inj e))
  unfold Token.passed
  split
  · rename_i hw
    have hno (z : Port) : (k.wait.set y.other false).get z = false := by
      rcases Port.eq_or_eq_other z y with rfl | rfl
      · rw [PerPort.get_set_ne _ _ (Port.ne_other z)]; exact hy
      · exact PerPort.get_set_same _ _ _
    refine ⟨fun z hz => absurd hz (by rw [hno z]; decide), fun z hz => ⟨fun e => ?_, hno z⟩⟩
    rw [← Option.some.inj e, h.active_of_wait hw] at hz; cases hz
  · rename_i hw
    have hno (z : Port) : k.wait.get z = false := by
      rcases Port.eq_or_eq_other z y with rfl | rfl
      · exact hy
      · exact Bool.eq_false_iff.mpr hw
    exact ⟨fun z hz => absurd hz (by rw [hno z]; decide), fun z _ => ⟨fun e => (nomatch e), hno z⟩⟩

/-- The token of a port that is lost or reset, whatever that port is then (R117). -/
theorem TokenSound.withdrawn (h : TokenSound a k) (hb : b x.other = a x.other) : TokenSound b (k.withdrawn x) := by
  obtain ⟨p, hp, hx, e⟩ : ∃ p, TokenSound a p ∧ p.holder ≠ some x ∧
      k.withdrawn x = { p with wait := p.wait.set x false } := by
    by_cases hk : k.holder = some x
    · refine ⟨k.passed x, h.passed hk, ?_, by rw [Token.withdrawn, if_pos hk]⟩
      unfold Token.passed
      split
      · exact fun e => Port.other_ne x (Option.some.inj e)
      · exact fun e => nomatch e
    · exact ⟨k, h, hk, by rw [Token.withdrawn, if_neg hk]⟩
  rw [e]
  obtain ⟨hwaits, habsent⟩ := hp.unwaiting x
  refine ⟨hwaits, fun y hy => ?_⟩
  rcases Port.eq_or_eq_other y x with rfl | rfl
  · exact ⟨hx, PerPort.get_set_same _ _ _⟩
  · exact habsent x.other (hb ▸ hy)

/-- From `s` to `t` only the banks and one token change, and the token stays sound. -/
def OneToken (s t : State) : Prop :=
  ∃ n k, t.unbanked = (s.setToken n k).unbanked ∧ (TokenSound s.isActive (s.token n) → TokenSound s.isActive k)

theorem OneToken.none (h : t.unbanked = s.unbanked) : OneToken s t := by
  have e : s.tokens.set 0 (s.token 0) = s.tokens := Table.map_eq_self (f := id) rfl
  refine ⟨0, s.token 0, ?_, id⟩
  rw [h]
  exact congrArg (fun c => State.unbanked { s with tokens := c }) e.symm

theorem oneToken_refuseToken (x : Port) (code : TokenCode) (n : BitVec 4) (op : BitVec 2) (s : State) :
    OneToken s (refuseToken x code n op s) :=
  .none ((unbanked_countEvent ..).trans (unbanked_setTokenResult ..))

theorem oneToken_release {y : Port} (code : TokenCode) (op : BitVec 2) (hk : (s.token n).holder = some y) :
    OneToken s ((releaseToken y n s).setTokenResult x code n op) := by
  refine ⟨n, (s.token n).passed y, (unbanked_setTokenResult ..).trans ?_, fun h => h.passed hk⟩
  rw [releaseToken_eq]
  split
  · exact unbanked_noteToken ..
  · rfl

theorem oneToken_tokenCommand (x : Port) (w : Word) (s : State) : OneToken s (tokenCommand x w s) := by
  simp only [tokenCommand]
  split
  · exact oneToken_refuseToken ..
  · rename_i hx
    have hx : s.isActive x = true := by simpa using hx
    split
    · simp only [cancelWait]
      split
      · exact ⟨_, _, unbanked_setTokenResult .., fun h => h.unwaiting x⟩
      · exact oneToken_refuseToken ..
    · split
      · rw [acquireToken_eq]
        split
        · rename_i hk
          exact ⟨_, _, unbanked_setTokenResult .., fun h => h.taken hk hx⟩
        · split
          · exact .none (unbanked_setTokenResult ..)
          · rename_i hn hne
            refine ⟨_, _, unbanked_setTokenResult .., fun h => h.waiting ?_ hx⟩
            obtain ⟨y, hy⟩ := Option.ne_none_iff_exists'.mp hn
            rcases Port.eq_or_eq_other y x with rfl | rfl
            · exact absurd hy hne
            · exact hy
      · split
        · unfold releaseOwnToken
          split
          · rename_i hk
            exact oneToken_release _ _ hk
          · exact oneToken_refuseToken ..
        · unfold forceReleaseToken
          split
          · exact oneToken_refuseToken ..
          · split
            · exact .none (unbanked_setTokenResult ..)
            · rename_i y hk
              exact oneToken_release _ _ hk

/-! ## The loss and the return of a port -/

theorem Visited.isActive {A : BitVec 4 → Prop} {F : Conduit → Conduit} {N : Port → Conduit → Prop}
    (h : Visited A F N s t) (y : Port) : t.isActive y = s.isActive y := by
  rw [State.isActive, h.banks y]; rfl

theorem Withdrawn.isActive {A : BitVec 4 → Prop} (h : Withdrawn A x s t) (y : Port) : t.isActive y = s.isActive y := by
  rcases Port.eq_or_eq_other y x with rfl | rfl
  · rw [State.isActive, h.own]; rfl
  · rw [State.isActive, h.partner]; rfl

/-- The state of an expiry after its first effects, on the banks alone (R166). -/
def lost (x : Port) (s : State) : State :=
  ((s.mapMonitor x fun m => { m with presence := .absent, lastCause := .expired }).countEvent x .loss).latch x.other
    linePartner

theorem expire_eq (x : Port) (s : State) : expire x s = releaseTokensOf x (revoke x true (lost x s)) := rfl

theorem unbanked_lost (x : Port) (s : State) : (lost x s).unbanked =
    (s.mapMonitor x fun m => { m with presence := .absent, lastCause := .expired }).unbanked :=
  (unbanked_latch ..).trans (unbanked_countEvent ..)

theorem sameShared_of_unbanked (h : t.unbanked = s.unbanked) : SameShared s t := by
  rw [SameShared, eq_of_unbanked h]

theorem sameShared_lost (x : Port) (s : State) : SameShared s (lost x s) :=
  (sameShared_mapBank s x fun b => { b with monitor := { b.monitor with presence := .absent, lastCause := .expired } }).trans
    (sameShared_of_unbanked (unbanked_lost x s))

theorem expire_conduit (x : Port) (s : State) (n : BitVec 4) : (expire x s).conduit n =
    if (s.conduit n).enabled = true ∧ (s.conduit n).holdOnLoss = false then (s.conduit n).revoked x else s.conduit n := by
  have h := (revoke_visited x true (lost x s)).inside n trivial
  have e : (lost x s).conduit n = s.conduit n :=
    congrArg (fun u : State × (Port → Bool) => u.1.conduit n) (unbanked_lost x s)
  have e' : (expire x s).conduit n = (revoke x true (lost x s)).conduit n :=
    congrArg (Table.get · n) (releaseTokensOf_conduits x (revoke x true (lost x s)))
  rw [e', h]
  simp [e]

theorem expire_token (x : Port) (s : State) (n : BitVec 4) : (expire x s).token n = (s.token n).withdrawn x := by
  have e : (lost x s).tokens = s.tokens := congrArg (fun u : State × (Port → Bool) => u.1.tokens) (unbanked_lost x s)
  rw [expire_eq, (releaseTokensOf_withdrawn x _).inside n trivial, State.token, revoke_tokens, e]
  rfl

theorem sameShared_expire (x : Port) (s : State) : SameShared s (expire x s) :=
  ((sameShared_lost x s).trans (sameShared_revoke x true _)).trans (sameShared_releaseTokensOf x _)

theorem expire_isActive (x : Port) (s : State) (y : Port) :
    (expire x s).isActive y = (s.mapMonitor x fun m => { m with presence := .absent, lastCause := .expired }).isActive y := by
  rw [expire_eq, (releaseTokensOf_withdrawn x _).isActive, (revoke_visited x true _).isActive]
  exact isActive_of_unbanked (unbanked_lost x s) y

/-- Port `x` is lost or reset from `s` to `t`: revoked on some conduits, its tokens withdrawn (R107, R117). -/
def Departs (x : Port) (s t : State) : Prop :=
  (∀ n, t.conduit n = s.conduit n ∨ t.conduit n = (s.conduit n).revoked x) ∧
  (∀ n, t.token n = (s.token n).withdrawn x) ∧ SameShared s t ∧ t.isActive x.other = s.isActive x.other

theorem departs_portReset (x : Port) (s : State) : Departs x s (portReset x s) := by
  refine ⟨fun n => ?_, portReset_token x s, sameShared_portReset x s, ?_⟩
  · rw [portReset_conduit]
    split
    · exact .inr rfl
    · exact .inl rfl
  · rw [State.isActive, portReset_bank_other]; rfl

theorem departs_expire (x : Port) (s : State) : Departs x s (expire x s) := by
  refine ⟨fun n => ?_, expire_token x s, sameShared_expire x s, ?_⟩
  · rw [expire_conduit]
    split
    · exact .inr rfl
    · exact .inl rfl
  · rw [expire_isActive, State.isActive]
    exact congrArg (fun b : Bank => b.monitor.presence == .active) (State.bank_mapBank_other s x _)

end Sys2Proof.Machine
end

section
/-! The three invariants of the blocks, each kept by every step, and the state after reset. -/

namespace Sys2Proof.Machine

-- Elaborates the proofs in order, none beside the tests' kernel evaluations: each that waits there costs a thread's memory.
set_option deprecated.oldSectionVars true

variable {s t u : State} {x : Port}

/-! ## What each group of operations leaves alone -/

/-- Two states with the same cadences, cutoff unit and timebase. -/
def SameTiming (s t : State) : Prop := t.cadences = s.cadences ∧ t.cutoff = s.cutoff ∧ t.timebase = s.timebase

/-- Two states with the same tokens and the same ACTIVE ports. -/
def SameTokens (s t : State) : Prop := t.tokens = s.tokens ∧ ∀ y, t.isActive y = s.isActive y

/-- The same conduits, and no live cadence lost. -/
def SameConduits (s t : State) : Prop :=
  t.conduits = s.conduits ∧ ∀ k, (s.cadence k).live = true → (t.cadence k).live = true

theorem sameTiming_of_unbanked (h : t.unbanked = s.unbanked) : SameTiming s t :=
  ⟨congrArg (fun r : State × (Port → Bool) => r.1.cadences) h, congrArg (fun r : State × (Port → Bool) => r.1.cutoff) h,
    congrArg (fun r : State × (Port → Bool) => r.1.timebase) h⟩

theorem sameTokens_of_unbanked (h : t.unbanked = s.unbanked) : SameTokens s t :=
  ⟨congrArg (fun r : State × (Port → Bool) => r.1.tokens) h, isActive_of_unbanked h⟩

theorem OneConduit.sameTiming (h : OneConduit s t) : SameTiming s t := by
  obtain ⟨n, d, caps, h, -⟩ := h
  exact (sameTiming_of_unbanked h :)

theorem OneConduit.sameTokens (h : OneConduit s t) : SameTokens s t := by
  obtain ⟨n, d, caps, h, -⟩ := h
  exact (sameTokens_of_unbanked h :)

theorem OneToken.sameTiming (h : OneToken s t) : SameTiming s t := by
  obtain ⟨n, k, h, -⟩ := h
  exact (sameTiming_of_unbanked h :)

theorem SameTiming.sameConduits (h : SameTiming s t) (hc : t.conduits = s.conduits) : SameConduits s t :=
  ⟨hc, fun k hk => by rw [State.cadence, h.1]; exact hk⟩

theorem OneToken.sameConduits (h : OneToken s t) : SameConduits s t := by
  refine h.sameTiming.sameConduits ?_
  obtain ⟨n, k, h, -⟩ := h
  exact congrArg (fun r : State × (Port → Bool) => r.1.conduits) h

theorem CadenceFlush.sameTokens (h : CadenceFlush s t) : SameTokens s t := by
  obtain ⟨cads, cut, caps, sel, u, hu, hf, -⟩ := h
  obtain ⟨ht, ha⟩ := sameTokens_of_unbanked hf.unbanked
  obtain ⟨hs, hb⟩ := sameTokens_of_unbanked hu
  exact ⟨ht.trans hs, fun y => (ha y).trans (hb y)⟩

theorem Departs.sameTiming (h : Departs x s t) : SameTiming s t := by
  obtain ⟨-, -, h, -⟩ := h
  have h : { t with banks := s.banks, conduits := s.conduits, tokens := s.tokens } = s := h
  exact ⟨(congrArg State.cadences h :), (congrArg State.cutoff h :), (congrArg State.timebase h :)⟩

/-- The return of a port works on the banks alone (R168). -/
theorem rejoinPort_eq (x : Port) (s : State) : rejoinPort x s = s ∨
    rejoinPort x s = (s.mapMonitor x fun m => { m.restarted with presence := .active }).latch x.other linePartner := by
  unfold rejoinPort
  split
  · exact .inl rfl
  · exact .inr rfl

theorem sameTiming_rejoinPort (x : Port) (s : State) : SameTiming s (rejoinPort x s) := by
  rcases rejoinPort_eq x s with h | h
  · rw [h]; exact ⟨rfl, rfl, rfl⟩
  · rw [h]; exact ⟨rfl, rfl, rfl⟩

theorem rejoinPort_conduits (x : Port) (s : State) : (rejoinPort x s).conduits = s.conduits := by
  rcases rejoinPort_eq x s with h | h
  · rw [h]
  · rw [h]; rfl

theorem rejoinPort_tokens (x : Port) (s : State) : (rejoinPort x s).tokens = s.tokens := by
  rcases rejoinPort_eq x s with h | h
  · rw [h]
  · rw [h]; rfl

/-- A rejoin takes no port's presence. -/
theorem rejoinPort_isActive (x : Port) (s : State) (y : Port) (h : (rejoinPort x s).isActive y = false) :
    s.isActive y = false := by
  rcases rejoinPort_eq x s with e | e
  · rw [e] at h; exact h
  · rw [e, isActive_of_unbanked (unbanked_latch ..)] at h
    rcases Port.eq_or_eq_other y x with rfl | rfl
    · rw [State.isActive, State.mapMonitor, State.bank_mapBank_same] at h; cases h
    · rw [State.isActive, State.mapMonitor, State.bank_mapBank_other] at h; exact h

/-! ## Tokens (R110, R117) -/

theorem State.TokensSound.same (hs : s.TokensSound) (h : SameTokens s t) : t.TokensSound := by
  obtain ⟨ht, ha⟩ := h
  rw [tokensSound_iff] at hs ⊢
  intro n
  rw [State.token, ht]
  exact (hs n).mono fun y hy => (ha y).symm.trans hy

theorem State.TokensSound.one (hs : s.TokensSound) (h : OneToken s t) : t.TokensSound := by
  obtain ⟨n, k, h, hk⟩ := h
  obtain ⟨ht, ha⟩ := sameTokens_of_unbanked h
  rw [tokensSound_iff] at hs ⊢
  intro m
  have e : t.token m = (s.setToken n k).token m := congrArg (Table.get · m) ht
  rw [e, State.token_setToken]
  refine TokenSound.mono ?_ fun y hy => (ha y).symm.trans hy
  split
  · exact hk (hs n)
  · exact hs m

theorem State.TokensSound.departs (hs : s.TokensSound) (h : Departs x s t) : t.TokensSound := by
  obtain ⟨-, ht, -, ha⟩ := h
  rw [tokensSound_iff] at hs ⊢
  intro n
  rw [ht n]
  exact (hs n).withdrawn ha

theorem tokensSound_of_reset (h : t.tokens = Table.all 4 Token.reset) : t.TokensSound :=
  tokensSound_iff.mpr fun n => by
    rw [State.token, h, Table.get_all]
    exact tokenSound_reset

theorem tokensSound_blockInvariant : BlockInvariant State.TokensSound := by
  refine ⟨fun s t h hs => hs.same ⟨?_, ?_⟩, ⟨fun s n r w he hs => ?_, fun s n hs => ?_, fun s n hs => ?_, fun s x w hs => ?_⟩,
    ⟨fun s x w hs => ?_, fun s x hs => ?_, fun s x hs => ?_, fun s x hs => ?_, fun s _ => ?_, fun s _ => ?_⟩,
    ⟨fun s hs => ?_, fun s k hs => ?_, fun s k hs => ?_, fun s k hs => ?_, fun s w hs => ?_, fun s cause hs => ?_,
      fun s hs => ?_, fun s k hs => ?_⟩⟩
  · exact congrArg (fun i => i.2.1) h
  · exact congrFun (congrArg (fun i => i.2.2.2.2.2) h)
  · exact hs.same (oneConduit_writeCfg r w he).sameTokens
  · exact hs.same (oneConduit_enableConduit n s).sameTokens
  · exact hs.same (oneConduit_disableConduit n s).sameTokens
  · exact hs.same (oneConduit_conduitCommand x w s).sameTokens
  · exact hs.one (oneToken_tokenCommand x w s)
  · exact hs.departs (departs_expire x s)
  · rw [tokensSound_iff] at hs ⊢
    intro n
    rw [State.token, rejoinPort_tokens]
    exact (hs n).mono (rejoinPort_isActive x s)
  · exact hs.departs (departs_portReset x s)
  · obtain ⟨conduits, cadences, captures, -, -, -, e⟩ := bridgeReset_eq s
    exact tokensSound_of_reset (by rw [e])
  · exact tokensSound_of_reset rfl
  · exact hs.same (by unfold requestLoad; split <;> exact ⟨rfl, fun _ => rfl⟩)
  · exact hs.same (cadenceFlush_stopCadence k s).sameTokens
  · exact hs.same (cadenceFlush_armCadence k s).sameTokens
  · exact hs.same ⟨rfl, fun _ => rfl⟩
  · exact hs.same ⟨rfl, fun _ => rfl⟩
  · exact hs.same (cadenceFlush_enterCutoff cause s).sameTokens
  · exact hs.same ⟨rfl, fun _ => rfl⟩
  · exact hs.same (cadenceFlush_cadenceTurn k s).sameTokens

/-- Settles O57: tokens move by the token commands, by the loss, return and reset of a port and by the two other resets,
and each keeps every token sound. -/
theorem tokensStaySound : Obligations.TokensStaySound := fun _ _ hs h => tokensSound_blockInvariant.step hs h

/-! ## Conduits (R74, R77, R85, R93, R99) -/

theorem State.ConduitsSound.same (hs : s.ConduitsSound) (h : SameConduits s t) : t.ConduitsSound := by
  obtain ⟨hc, hl⟩ := h
  intro n
  rw [State.conduit, hc]
  refine (hs n).congr fun _ hg => ?_
  unfold gated at hg ⊢
  rw [Bool.and_eq_true] at hg ⊢
  exact ⟨hg.1, hl _ hg.2⟩

theorem State.ConduitsSound.one (hs : s.ConduitsSound) (h : OneConduit s t) : t.ConduitsSound := by
  have ht := h.sameTiming
  obtain ⟨n, d, caps, h, hd⟩ := h
  have hone : (s.mapConduit n fun _ => d).ConduitsSound := by
    intro m
    rw [State.conduit_mapConduit]
    split
    · exact (hd (hs n)).congr fun _ hg => hg
    · exact (hs m).congr fun _ hg => hg
  exact hone.same (SameTiming.sameConduits (s := s.mapConduit n fun _ => d) ht
    (congrArg (fun r : State × (Port → Bool) => r.1.conduits) h))

/-- A flush keeps the tables sound where every other live cadence stays live. -/
theorem State.ConduitsSound.flush (hs : s.ConduitsSound) (h : CadenceFlush s t) : t.ConduitsSound := by
  obtain ⟨cads, cut, caps, sel, u, hu, hf, hl⟩ := h
  have hconduit (n) : u.conduit n = s.conduit n := congrArg (fun r : State × (Port → Bool) => r.1.conduit n) hu
  have hcads : t.cadences = cads := hf.cadences.trans (congrArg (fun r : State × (Port → Bool) => r.1.cadences) hu)
  intro n
  by_cases hn : (s.conduit n).enabled = true ∧ (s.conduit n).timed = true ∧ sel (s.conduit n).cadence
  · obtain ⟨he, ht, hsel⟩ := hn
    rw [← hconduit n] at he ht hsel
    rw [hf.bound n he ht hsel, hconduit n]
    exact (hs n).flushed
  · rw [hf.other n (by rw [hconduit n]; exact hn), hconduit n]
    refine (hs n).congr fun hr hg => ?_
    obtain ⟨i, hi⟩ := List.exists_mem_of_ne_nil _ hr
    have he := (hs n).enabled (Conduit.mem_usedSlots.mpr (.inr (.inr (.inl hi))))
    unfold gated at hg ⊢
    rw [Bool.and_eq_true] at hg ⊢
    refine ⟨hg.1, ?_⟩
    rw [State.cadence, hcads]
    exact hl _ hg.2 fun hsel => hn ⟨he, hg.1, hsel⟩

theorem State.ConduitsSound.departs (hs : s.ConduitsSound) (h : Departs x s t) : t.ConduitsSound := by
  have ht := h.sameTiming.1
  obtain ⟨hc, -⟩ := h
  intro n
  have hgate {c : Conduit} (hg : ConduitSound s c) : ConduitSound t c :=
    hg.congr fun _ h => by rw [gated, State.cadence, ht]; exact h
  rcases hc n with e | e <;> rw [e]
  · exact hgate (hs n)
  · exact hgate ((hs n).revoked x)

theorem conduitsSound_blockInvariant : BlockInvariant State.ConduitsSound := by
  refine ⟨fun s t h hs => hs.same ⟨?_, fun k hk => ?_⟩,
    ⟨fun s n r w he hs => ?_, fun s n hs => ?_, fun s n hs => ?_, fun s x w hs => ?_⟩,
    ⟨fun s x w hs => ?_, fun s x hs => ?_, fun s x hs => ?_, fun s x hs => ?_, fun s _ => ?_, fun s _ n => ?_⟩,
    ⟨fun s hs => ?_, fun s k hs => ?_, fun s k hs => ?_, fun s k hs => ?_, fun s w hs => ?_, fun s cause hs => ?_,
      fun s hs => ?_, fun s k hs => ?_⟩⟩
  · exact congrArg (fun i => i.1) h
  · have e : (t.cadence k).state = (s.cadence k).state := congrArg (fun i => (i.2.2.2.1 k).1) h
    rw [Cadence.live, e]; exact hk
  · exact hs.one (oneConduit_writeCfg r w he)
  · exact hs.one (oneConduit_enableConduit n s)
  · exact hs.one (oneConduit_disableConduit n s)
  · exact hs.one (oneConduit_conduitCommand x w s)
  · exact hs.same (oneToken_tokenCommand x w s).sameConduits
  · exact hs.departs (departs_expire x s)
  · exact hs.same ((sameTiming_rejoinPort x s).sameConduits (rejoinPort_conduits x s))
  · exact hs.departs (departs_portReset x s)
  · obtain ⟨conduits, cadences, captures, hconduits, -, -, e⟩ := bridgeReset_eq s
    intro n
    rw [e]
    exact .of_unused (by show (conduits.get n).usedSlots = []; rw [hconduits n]; rfl)
  · exact .of_unused (by show (Table.get (Table.all 4 Conduit.reset) n).usedSlots = []; rw [Table.get_all]; rfl)
  · exact hs.same (by unfold requestLoad; split <;> exact ⟨rfl, fun _ => id⟩)
  · exact hs.flush (cadenceFlush_stopCadence k s)
  · exact hs.flush (cadenceFlush_armCadence k s)
  · exact hs.flush (cadenceFlush_mapCadence id)
  · exact hs.same ⟨rfl, fun _ => id⟩
  · exact hs.flush (cadenceFlush_enterCutoff cause s)
  · exact hs.same ⟨rfl, fun _ => id⟩
  · exact hs.flush (cadenceFlush_cadenceTurn k s)

/-- Settles O59: the slot tables change one at a time by the conduits' own registers, all at once by flushes of cadences
that stop and by the loss or reset of a port, and each keeps every table sound. -/
theorem conduitsStaySound : Obligations.ConduitsStaySound := fun _ _ hs h => conduitsSound_blockInvariant.step hs h

/-! ## Timing (R142, R145, R148, R152) -/

/-- One cadence, with cutoff ACTIVE or not and a load pending or not. -/
def CadenceTimed (active load : Bool) (c : Cadence) : Prop :=
  (active = true → c.live = false ∧ c.pulse = .off) ∧ (load = true → c.live = false) ∧ c.pulse ≠ .counted 0

theorem timingSound_iff :
    s.TimingSound ↔ ∀ k, CadenceTimed s.cutoff.active s.timebase.pendingLoad.isSome (s.cadence k) :=
  ⟨fun h k => ⟨fun ha => h.cutoff ha k, fun hl => h.load hl k, h.count k⟩,
    fun h => ⟨fun ha k => (h k).1 ha, fun hl k => (h k).2.1 hl, fun k => (h k).2.2⟩⟩

variable {active load : Bool} {c : Cadence}

/-- A cadence that is not live, with no pulse, meets every timing condition. -/
theorem CadenceTimed.of_off (hl : c.live = false) (hp : c.pulse = .off) : CadenceTimed active load c :=
  ⟨fun _ => ⟨hl, hp⟩, fun _ => hl, by rw [hp]; exact fun h => nomatch h⟩

/-- A live cadence has cutoff NORMAL and no load pending. -/
theorem CadenceTimed.of_live (h : CadenceTimed active load c) (hl : c.live = true) : active = false ∧ load = false := by
  obtain ⟨hactive, hload, -⟩ := h
  refine ⟨Bool.eq_false_iff.mpr fun ha => ?_, Bool.eq_false_iff.mpr fun ha => ?_⟩
  · rw [(hactive ha).1] at hl; cases hl
  · rw [hload ha] at hl; cases hl

/-- With cutoff NORMAL and no load pending only the pulse's count is asked for. -/
theorem CadenceTimed.of_normal (hp : c.pulse ≠ .counted 0) : CadenceTimed false false c :=
  ⟨fun h => (nomatch h), fun h => (nomatch h), hp⟩

theorem Cadence.ticked_pulse (c : Cadence) : c.ticked.pulse ≠ .counted 0 := by
  have e : c.ticked.pulse =
      if (if c.widthStaged then c.widthStage else c.width) = 0 then .acknowledged
      else .counted (if c.widthStaged then c.widthStage else c.width) := by
    unfold Cadence.ticked Cadence.schedule
    split <;> rfl
  rw [e]
  generalize (if c.widthStaged then c.widthStage else c.width) = width
  split
  · exact fun h => nomatch h
  · rename_i hw
    exact fun h => hw (Pulse.counted.inj h)

theorem Pulse.countDown_ne (p : Pulse) : p.countDown ≠ .counted 0 := by
  cases p with
  | counted n =>
    unfold Pulse.countDown
    dsimp only
    split
    · exact fun h => nomatch h
    · rename_i hn
      exact fun h => hn (by
        have := Pulse.counted.inj h
        have hlt := n.isLt
        bv_omega)
  | off => exact fun h => nomatch h
  | acknowledged => exact fun h => nomatch h

theorem CadenceTimed.countDown (h : CadenceTimed active load c) :
    CadenceTimed active load { c with pulse := c.pulse.countDown } := by
  obtain ⟨hactive, hload, -⟩ := h
  refine ⟨fun ha => ?_, hload, Pulse.countDown_ne _⟩
  obtain ⟨hl, hp⟩ := hactive ha
  exact ⟨hl, by show c.pulse.countDown = .off; rw [hp]; rfl⟩

theorem State.TimingSound.same (hs : s.TimingSound) (h : SameTiming s t) : t.TimingSound := by
  obtain ⟨hc, hk, hb⟩ := h
  rw [timingSound_iff] at hs ⊢
  intro k
  rw [State.cadence, hc, hk, hb]
  exact hs k

/-- One cadence updated, cutoff and the timebase as before. -/
theorem State.TimingSound.one {k : BitVec 2} {f : Cadence → Cadence} (hs : s.TimingSound)
    (hf : CadenceTimed s.cutoff.active s.timebase.pendingLoad.isSome (s.cadence k) →
      CadenceTimed s.cutoff.active s.timebase.pendingLoad.isSome (f (s.cadence k))) : (s.mapCadence k f).TimingSound := by
  rw [timingSound_iff] at hs ⊢
  intro j
  rw [State.cadence_mapCadence]
  split
  · exact hf (hs k)
  · exact hs j

theorem Flushed.sameTiming {A : BitVec 2 → Prop} (h : Flushed A s t) : SameTiming s t :=
  sameTiming_of_unbanked (s := { s with conduits := t.conduits }) h.unbanked

theorem timingSound_stopCadence (k : BitVec 2) (hs : s.TimingSound) : (stopCadence k s).TimingSound := by
  by_cases h : (s.cadence k).Live
  · exact (hs.one fun _ => .of_off rfl rfl).same (stopCadence_live h).sameTiming
  · rw [stopCadence_not_live h]; exact hs

theorem timingSound_armCadence (k : BitVec 2) (hs : s.TimingSound) : (armCadence k s).TimingSound := by
  unfold armCadence
  split
  · rename_i ha
    refine hs.one fun _ => ?_
    simp only [armAccepted, Bool.and_eq_true, Bool.not_eq_true', Option.isNone_iff_eq_none] at ha
    obtain ⟨⟨-, hcut⟩, hload⟩ := ha
    rw [hcut, hload]
    exact .of_normal fun h => nomatch h
  · exact hs.one fun h => h

theorem timingSound_acknowledgePulse (k : BitVec 2) (hs : s.TimingSound) : (acknowledgePulse k s).TimingSound := by
  refine hs.one fun h => ?_
  obtain ⟨hactive, hload, hcount⟩ := h
  refine ⟨fun ha => ?_, hload, ?_⟩
  · obtain ⟨hl, hp⟩ := hactive ha
    exact ⟨hl, by simp [hp]⟩
  · show (if _ then _ else _) ≠ _
    split
    · exact fun h => nomatch h
    · exact hcount

theorem timingSound_enterCutoff (cause : CutoffCause) (s : State) : (enterCutoff cause s).TimingSound := by
  rw [timingSound_iff]
  intro k
  rw [(enterCutoff_flushed cause s).1 k]
  exact .of_off (Cadence.halted_live _) rfl

theorem timingSound_cadenceTurn (k : BitVec 2) (hs : s.TimingSound) : (cadenceTurn k s).TimingSound := by
  by_cases h : (s.cadence k).Live ∧ (s.cadence k).next = s.timebase.time
  · obtain ⟨caps, -, hf⟩ := cadenceTick_flushed k s
    rw [cadenceTurn_due h]
    have hticked : (s.mapCadence k Cadence.ticked).TimingSound := hs.one fun hc => by
      obtain ⟨hcut, hload⟩ := hc.of_live ((Cadence.live_iff _).mpr h.1)
      rw [hcut, hload]
      exact .of_normal (Cadence.ticked_pulse _)
    have hf := hf.sameTiming
    exact hticked.same hf
  · rw [cadenceTurn_not_due h]
    exact hs.one fun h => h.countDown

theorem timingSound_requestLoad (hs : s.TimingSound) : (requestLoad s).TimingSound := by
  unfold requestLoad
  split
  · rw [timingSound_iff] at hs ⊢
    exact hs
  · rename_i hl
    rw [timingSound_iff] at hs ⊢
    intro k
    obtain ⟨hactive, -, hcount⟩ := hs k
    refine ⟨hactive, fun _ => ?_, hcount⟩
    have hnone : ¬ ∃ k ∈ four, (s.cadence k).live = true := mt List.any_eq_true.mpr hl
    exact Bool.eq_false_iff.mpr fun h => hnone ⟨k, mem_four k, h⟩

theorem timingSound_writeCutoffControl (w : Word) (hs : s.TimingSound) : (writeCutoffControl w s).TimingSound := by
  rw [timingSound_iff] at hs ⊢
  intro k
  obtain ⟨hactive, hload, hcount⟩ := hs k
  refine ⟨fun ha => hactive ?_, hload, hcount⟩
  have ha : (if bit w 1 then ({ s.cutoff with pinEn := bit w 0 } : Cutoff).cleared
      else { s.cutoff with pinEn := bit w 0 }).active = true := ha
  unfold Cutoff.cleared at ha
  cases hc : s.cutoff.active with
  | true => rfl
  | false => simp [hc] at ha

theorem timingSound_blockInvariant : BlockInvariant State.TimingSound := by
  refine ⟨fun s t h hs => ?_, ⟨fun s n r w he hs => ?_, fun s n hs => ?_, fun s n hs => ?_, fun s x w hs => ?_⟩,
    ⟨fun s x w hs => ?_, fun s x hs => ?_, fun s x hs => ?_, fun s x hs => ?_, fun s hs => ?_, fun s _ => ?_⟩,
    ⟨fun s hs => ?_, fun s k hs => ?_, fun s k hs => ?_, fun s k hs => ?_, fun s w hs => ?_, fun s cause hs => ?_,
      fun s hs => ?_, fun s k hs => ?_⟩⟩
  · have hload : t.timebase.pendingLoad.isSome = s.timebase.pendingLoad.isSome := congrArg (fun i => i.2.2.1) h
    have hcut : t.cutoff.active = s.cutoff.active := congrArg (fun i => i.2.2.2.2.1) h
    rw [timingSound_iff] at hs ⊢
    intro k
    have hstate : (t.cadence k).state = (s.cadence k).state := congrArg (fun i => (i.2.2.2.1 k).1) h
    have hpulse : (t.cadence k).pulse = (s.cadence k).pulse := congrArg (fun i => (i.2.2.2.1 k).2) h
    rw [hload, hcut, CadenceTimed, Cadence.live, hstate, hpulse]
    exact hs k
  · exact hs.same (oneConduit_writeCfg r w he).sameTiming
  · exact hs.same (oneConduit_enableConduit n s).sameTiming
  · exact hs.same (oneConduit_disableConduit n s).sameTiming
  · exact hs.same (oneConduit_conduitCommand x w s).sameTiming
  · exact hs.same (oneToken_tokenCommand x w s).sameTiming
  · exact hs.same (departs_expire x s).sameTiming
  · exact hs.same (sameTiming_rejoinPort x s)
  · exact hs.same (departs_portReset x s).sameTiming
  · obtain ⟨conduits, cadences, captures, -, hcadences, -, e⟩ := bridgeReset_eq s
    rw [timingSound_iff]
    intro k
    have hk : (bridgeReset s).cadence k = (s.cadence k).quieted := by rw [e]; exact hcadences k
    rw [hk]
    exact .of_off (Cadence.halted_live _) rfl
  · rw [timingSound_iff]
    intro k
    have hk : (pinReset s).cadence k = Cadence.reset := Table.get_all 2 Cadence.reset k
    rw [hk]
    exact .of_off rfl rfl
  · exact timingSound_requestLoad hs
  · exact timingSound_stopCadence k hs
  · exact timingSound_armCadence k hs
  · exact timingSound_acknowledgePulse k hs
  · exact timingSound_writeCutoffControl w hs
  · exact timingSound_enterCutoff cause s
  · rw [timingSound_iff] at hs ⊢
    intro k
    obtain ⟨hactive, -, hcount⟩ := hs k
    exact ⟨hactive, fun h => (nomatch h), hcount⟩
  · exact timingSound_cadenceTurn k hs

/-- Settles O58: a cadence becomes live by ARM and starts a pulse by its own tick, and both only with cutoff NORMAL and no
load pending; a load becomes pending only with no cadence live, and entry into cutoff stops every one. -/
theorem timingStaySound : Obligations.TimingStaysSound := fun _ _ hs h => timingSound_blockInvariant.step hs h

/-! ## The state after reset -/

/-- Settles O60. -/
theorem resetIsSound : Obligations.ResetIsSound := by
  refine ⟨Memory.wf_reset, tokensSound_of_reset rfl, ?_, fun n => .of_unused ?_⟩
  · rw [timingSound_iff]
    intro k
    have hk : State.reset.cadence k = Cadence.reset := Table.get_all 2 Cadence.reset k
    rw [hk]
    exact .of_off rfl rfl
  · have hn : State.reset.conduit n = Conduit.reset := Table.get_all 4 Conduit.reset n
    rw [hn]
    rfl

end Sys2Proof.Machine
end

section
/-! Transactions and commands (Tables 1.2, 1.3): the row of its own that an access of a register is, and the classification
of every transaction as exactly one well-formed command. -/

namespace Sys2Proof.Machine

-- Elaborates the proofs in order, none beside the tests' kernel evaluations: each that waits there costs a thread's memory.
set_option deprecated.oldSectionVars true

variable {p : Sender} {r : Reg} {w : Word} {c : Instr} {off : BitVec 12} {size : BitVec 2} {op : BusOp}

/-! ## The rows of their own -/

theorem rowOfWrite_tokenCommand (h : rowOfWrite p .tokenCommand w = some c) :
    c.wellFormed = true ∧ c.request = some (p, writeTo .tokenCommand w) := by
  dsimp only [rowOfWrite] at h
  split at h
  · rename_i hw; cases h
    exact ⟨beq_iff_eq.mpr hw, congrArg (fun v => some (p, writeTo .tokenCommand v)) (tokenWord_eq hw)⟩
  · rename_i hw; cases h
    exact ⟨beq_iff_eq.mpr hw, congrArg (fun v => some (p, writeTo .tokenCommand v)) (tokenWord_eq hw)⟩
  · rename_i hw; cases h
    exact ⟨beq_iff_eq.mpr hw, congrArg (fun v => some (p, writeTo .tokenCommand v)) (tokenWord_eq hw)⟩
  · rename_i h0 h1 h2
    have last : ∀ v : BitVec 2, v ≠ 0 → v ≠ 1 → v ≠ 2 → v = 3 := by decide
    have hw := last _ h0 h1 h2
    cases h
    exact ⟨beq_iff_eq.mpr hw, congrArg (fun v => some (p, writeTo .tokenCommand v)) (tokenWord_eq hw)⟩

theorem rowOfWrite_conduitCommand (h : rowOfWrite p .conduitCommand w = some c) :
    c.wellFormed = true ∧ c.request = some (p, writeTo .conduitCommand w) := by
  dsimp only [rowOfWrite] at h
  split at h
  iterate 6
    · rename_i hw; cases h
      exact ⟨beq_iff_eq.mpr hw, congrArg (fun v => some (p, writeTo .conduitCommand v)) (commandWord_eq hw)⟩
  · rename_i h1 h2 h3 h4 h5 h6
    have bad : ∀ v : BitVec 4, v ∉ [1#4, 2#4, 3#4, 4#4, 5#4, 6#4] → isBadOp v = true := by decide
    have hw := bad (w.extractLsb' 0 4) (by simp; exact ⟨h1, h2, h3, h4, h5, h6⟩)
    cases h
    exact ⟨hw, by rw [Instr.request, badOpWord_eq hw]⟩

theorem rowOfWrite_cadCommand {k : BitVec 2} (h : rowOfWrite p (.cadCommand k) w = some c) :
    c.wellFormed = true ∧ c.request = some (p, writeTo (.cadCommand k) w) := by
  dsimp only [rowOfWrite] at h
  split at h
  · rename_i h0; cases h
    exact ⟨h0, by rw [Instr.request, fixedWord_1_0 h0]⟩
  rename_i h0
  have h0 : bit w 0 = false := Bool.eq_false_iff.mpr h0
  split at h
  · rename_i h1; cases h
    exact ⟨by simp [Instr.wellFormed, h0, h1], by rw [Instr.request, fixedWord_2_1 h1 h0]⟩
  rename_i h1
  have h1 : bit w 1 = false := Bool.eq_false_iff.mpr h1
  split at h
  · rename_i h8; cases h
    exact ⟨by simp [Instr.wellFormed, h0, h1, h8], by rw [Instr.request, fixedWord_x100_x003 h8 h0 h1]⟩
  rename_i h8
  have h8 : bit w 8 = false := Bool.eq_false_iff.mpr h8
  split at h
  · rename_i h9; cases h
    exact ⟨by simp [Instr.wellFormed, h0, h1, h8, h9], by rw [Instr.request, fixedWord_x200_x103 h9 h0 h1 h8]⟩
  rename_i h9
  have h9 : bit w 9 = false := Bool.eq_false_iff.mpr h9
  split at h
  · rename_i h10; cases h
    exact ⟨by simp [Instr.wellFormed, h0, h1, h8, h9, h10], by rw [Instr.request, fixedWord_x400_x303 h10 h0 h1 h8 h9]⟩
  rename_i h10
  have h10 : bit w 10 = false := Bool.eq_false_iff.mpr h10
  split at h
  · rename_i h11; cases h
    exact ⟨by simp [Instr.wellFormed, h0, h1, h8, h9, h10, h11],
      by rw [Instr.request, fixedWord_x800_x703 h11 h0 h1 h8 h9 h10]⟩
  · cases h

/-- A register's own row is a well-formed command that presents that register's write. -/
theorem rowOfWrite_spec (h : rowOfWrite p r w = some c) :
    c.wellFormed = true ∧ c.request = some (p, writeTo r w) := by
  cases r with
  | bridgeControl | portControl | timeControl =>
    dsimp only [rowOfWrite] at h
    split at h
    · rename_i h0
      cases h
      exact ⟨h0, by rw [Instr.request, fixedWord_1_0 h0]⟩
    · rename_i h0
      split at h
      · rename_i h1
        have h0 : bit w 0 = false := Bool.eq_false_iff.mpr h0
        cases h
        exact ⟨by simp [Instr.wellFormed, h0, h1], by rw [Instr.request, fixedWord_2_1 h1 h0]⟩
      · cases h
  | cutoffTrigger =>
    dsimp only [rowOfWrite] at h
    split at h
    · rename_i h0
      cases h
      exact ⟨h0, by rw [Instr.request, fixedWord_1_0 h0]⟩
    · cases h
  | invalidate =>
    dsimp only [rowOfWrite] at h
    cases h31 : bit w 31 with
    | true =>
      rw [h31] at h; cases h
      exact ⟨h31, by rw [Instr.request, fixedWord_x80000000_0 h31]⟩
    | false =>
      rw [h31] at h; cases h
      exact ⟨by simp [Instr.wellFormed, h31], by rw [Instr.request, fixedWord_0_x80000000 h31]⟩
  | cfgEnable n =>
    dsimp only [rowOfWrite] at h
    cases h0 : bit w 0 with
    | true =>
      rw [h0] at h; cases h
      exact ⟨h0, by rw [Instr.request, fixedWord_1_0 h0]⟩
    | false =>
      rw [h0] at h; cases h
      exact ⟨by simp [Instr.wellFormed, h0], by rw [Instr.request, fixedWord_0_1 h0]⟩
  | cutoffControl =>
    dsimp only [rowOfWrite] at h
    cases h1 : bit w 1 with
    | true =>
      rw [h1] at h; cases h
      exact ⟨h1, by rw [Instr.request, fixedWord_2_0 h1]⟩
    | false =>
      rw [h1] at h; cases h
      exact ⟨by simp [Instr.wellFormed, h1], by rw [Instr.request, fixedWord_0_2 h1]⟩
  | tierControl =>
    dsimp only [rowOfWrite] at h
    split at h
    · rename_i hs
      cases h
      exact ⟨bne_iff_ne.mpr hs, rfl⟩
    · rename_i hs
      have hs : w.extractLsb' 8 4 = 0 := not_not.mp hs
      split at h
      · rename_i hc
        cases h
        exact ⟨Bool.and_eq_true_iff.mpr ⟨beq_iff_eq.mpr hs, bne_iff_ne.mpr hc⟩, by rw [Instr.request, fixedWord_soft hs]⟩
      · cases h
  | tokenCommand => exact rowOfWrite_tokenCommand h
  | conduitCommand => exact rowOfWrite_conduitCommand h
  | cadCommand k => exact rowOfWrite_cadCommand h
  | liveLimit | viewBase | viewControl | probeAddr | denyRelease | faultRelease | counter | linePending | routeLo | routeHi
  | dismiss | doorbellOut | doorbellIn | tokenNotice | commitNotice | drainNotice | resetNotice | cfg | prescale
  | cadPeriodStage | cadWidthStage | cadAck | capConfig => cases h; exact ⟨rfl, rfl⟩
  | _ => cases h

/-- The reads that act. -/
theorem rowOfRead_spec (h : rowOfRead p r = some c) : c.wellFormed = true ∧ c.request = some (p, readOf r) := by
  cases r with
  | claim | timeLo | capTimeLo => cases h; exact ⟨rfl, rfl⟩
  | _ => cases h

/-- A row of its own is the row of its window transaction. -/
theorem ownRow_spec (h : ownRow p off size op = some c) :
    c.wellFormed = true ∧ c.request = some (p, { addr := windowAddr off, size := size, op := op }) := by
  unfold ownRow at h
  split at h
  · rename_i hs
    subst hs
    split at h
    · rename_i r w hr
      obtain rfl := Reg.ofOffset_eq_some_iff.mp hr
      exact rowOfWrite_spec h
    · rename_i r hr
      obtain rfl := Reg.ofOffset_eq_some_iff.mp hr
      exact rowOfRead_spec h
    · cases h
  · cases h

/-- Every transaction is the transaction of the command it is classified as, and that command is well formed. -/
theorem ofTxn_spec (p : Sender) (t : Txn) :
    (Instr.ofTxn p t).wellFormed = true ∧ (Instr.ofTxn p t).request = some (p, t) := by
  obtain ⟨addr, size, op⟩ := t
  unfold Instr.ofTxn
  cases hs : space addr with
  | view off => rw [eq_viewAddr hs]; exact ⟨rfl, rfl⟩
  | unmapped => exact ⟨beq_iff_eq.mpr hs, rfl⟩
  | window off =>
    rw [eq_windowAddr hs]
    dsimp only
    cases hrow : ownRow p off size op with
    | some c => exact ownRow_spec hrow
    | none =>
      cases op with
      | write w => exact ⟨by show (ownRow p off size (.write w)).isNone = true; rw [hrow]; rfl, rfl⟩
      | read => exact ⟨by show (ownRow p off size .read).isNone = true; rw [hrow]; rfl, rfl⟩

theorem request_ofTxn (p : Sender) (t : Txn) : (Instr.ofTxn p t).request = some (p, t) := (ofTxn_spec p t).2

/-- The round trip of every command: the transaction that a well-formed command presents is that command again. -/
theorem roundTrip (c : Instr) : Laws.RoundTrip.Statement c := by
  cases c with
  | viewAccess => exact Laws.RoundTrip.viewAccess _ _ _ _
  | unmappedAccess => exact Laws.RoundTrip.unmappedAccess _ _
  | registerWrite => exact Laws.RoundTrip.registerWrite _ _ _ _
  | bridgeReset => exact Laws.RoundTrip.bridgeReset _ _
  | lock => exact Laws.RoundTrip.lock _ _
  | portReset => exact Laws.RoundTrip.portReset _ _
  | rejoin => exact Laws.RoundTrip.rejoin _ _
  | viewBaseWrite => exact Laws.RoundTrip.viewBaseWrite _ _
  | viewControlWrite => exact Laws.RoundTrip.viewControlWrite _ _
  | singleInvalidation => exact Laws.RoundTrip.singleInvalidation _ _
  | invalidateAll => exact Laws.RoundTrip.invalidateAll _ _
  | sweepProgress => exact Laws.RoundTrip.sweepProgress _
  | sweepEnd => exact Laws.RoundTrip.sweepEnd _
  | probe => exact Laws.RoundTrip.probe _ _
  | denyRelease => exact Laws.RoundTrip.denyRelease _ _
  | faultRelease => exact Laws.RoundTrip.faultRelease _ _
  | counterClear => exact Laws.RoundTrip.counterClear _ _ _
  | conduitConfigWrite => exact Laws.RoundTrip.conduitConfigWrite _ _ _ _
  | conduitEnable => exact Laws.RoundTrip.conduitEnable _ _ _
  | conduitDisable => exact Laws.RoundTrip.conduitDisable _ _ _
  | openWrite => exact Laws.RoundTrip.openWrite _ _
  | commit => exact Laws.RoundTrip.commit _ _
  | abandon => exact Laws.RoundTrip.abandon _ _
  | openRead => exact Laws.RoundTrip.openRead _ _
  | conduitRelease => exact Laws.RoundTrip.conduitRelease _ _
  | returnSlot => exact Laws.RoundTrip.returnSlot _ _
  | badOp => exact Laws.RoundTrip.badOp _ _
  | commitNoticeClear => exact Laws.RoundTrip.commitNoticeClear _ _
  | drainNoticeClear => exact Laws.RoundTrip.drainNoticeClear _ _
  | resetNoticeClear => exact Laws.RoundTrip.resetNoticeClear _ _
  | cancel => exact Laws.RoundTrip.cancel _ _
  | acquire => exact Laws.RoundTrip.acquire _ _
  | tokenRelease => exact Laws.RoundTrip.tokenRelease _ _
  | forceRelease => exact Laws.RoundTrip.forceRelease _ _
  | tokenNoticeClear => exact Laws.RoundTrip.tokenNoticeClear _ _
  | ring => exact Laws.RoundTrip.ring _ _
  | doorbellClear => exact Laws.RoundTrip.doorbellClear _ _
  | linePendingClear => exact Laws.RoundTrip.linePendingClear _ _
  | routeWrite => exact Laws.RoundTrip.routeWrite _ _ _
  | softSet => exact Laws.RoundTrip.softSet _ _
  | softClr => exact Laws.RoundTrip.softClr _ _
  | claim => exact Laws.RoundTrip.claim _
  | dismiss => exact Laws.RoundTrip.dismiss _ _
  | timeLoRead => exact Laws.RoundTrip.timeLoRead _
  | prescaleWrite => exact Laws.RoundTrip.prescaleWrite _ _
  | load => exact Laws.RoundTrip.load _ _
  | clrRefused => exact Laws.RoundTrip.clrRefused _ _
  | tick => exact Laws.RoundTrip.tick
  | timeLoadApply => exact Laws.RoundTrip.timeLoadApply
  | liveWarn => exact Laws.RoundTrip.liveWarn _
  | expiry => exact Laws.RoundTrip.expiry _
  | cadenceTick => exact Laws.RoundTrip.cadenceTick _
  | pulseEnd => exact Laws.RoundTrip.pulseEnd _
  | cadPeriodStageWrite => exact Laws.RoundTrip.cadPeriodStageWrite _ _ _
  | cadWidthStageWrite => exact Laws.RoundTrip.cadWidthStageWrite _ _ _
  | arm => exact Laws.RoundTrip.arm _ _ _
  | stop => exact Laws.RoundTrip.stop _ _ _
  | clrCmdErr => exact Laws.RoundTrip.clrCmdErr _ _ _
  | clrLate => exact Laws.RoundTrip.clrLate _ _ _
  | clrOverlap => exact Laws.RoundTrip.clrOverlap _ _ _
  | clrAckOverrun => exact Laws.RoundTrip.clrAckOverrun _ _ _
  | cadAck => exact Laws.RoundTrip.cadAck _ _ _
  | cutoffDetection => exact Laws.RoundTrip.cutoffDetection
  | soft => exact Laws.RoundTrip.soft _ _
  | clear => exact Laws.RoundTrip.clear _ _
  | cutoffControlWrite => exact Laws.RoundTrip.cutoffControlWrite _ _
  | capConfigWrite => exact Laws.RoundTrip.capConfigWrite _ _ _
  | captureEdge => exact Laws.RoundTrip.captureEdge _ _
  | capTimeLoRead => exact Laws.RoundTrip.capTimeLoRead _ _
  | liveLimitWrite => exact Laws.RoundTrip.liveLimitWrite _ _ _
  | pinReset => exact Laws.RoundTrip.pinReset
  | initialization => exact Laws.RoundTrip.initialization
  | initializationEnd => exact Laws.RoundTrip.initializationEnd
  | registerRead => exact Laws.RoundTrip.registerRead _ _ _
  | cutoffPinLevelChange => exact Laws.RoundTrip.cutoffPinLevelChange _
  | unmatchedEdge => exact Laws.RoundTrip.unmatchedEdge _ _

/-- Settles O6. -/
theorem everyTransactionIsOneCommand : Obligations.EveryTransactionIsOneCommand :=
  ⟨ofTxn_spec, fun c p t hw hr => (roundTrip c hw p t hr).symm, fun _ _ => Reg.ofOffset_eq_some_iff⟩

end Sys2Proof.Machine
end

section
/-! What a register read returns, field by field (R13): the words of the register file as the field tables place and code
them. -/

namespace Sys2Proof.Machine

-- Elaborates the proofs in order, none beside the tests' kernel evaluations: each that waits there costs a thread's memory.
set_option deprecated.oldSectionVars true

variable {s : State} {x : Port}

/-! ## Fields -/

/-- One field of a register word: its lowest bit, its width, its value. -/
def field (pos n v : Nat) : Word := BitVec.ofNat 32 (v % 2 ^ n) <<< pos

theorem fieldsWord_nil : fieldsWord [] = 0#32 := rfl

theorem fieldsWord_cons (pos n v : Nat) (fs : List (Nat × Nat × Nat)) :
    fieldsWord ((pos, n, v) :: fs) = field pos n v ||| fieldsWord fs := rfl

theorem fieldsWord_append (fs gs : List (Nat × Nat × Nat)) : fieldsWord (fs ++ gs) = fieldsWord fs ||| fieldsWord gs := by
  induction fs with
  | nil => simp [fieldsWord_nil]
  | cons f fs ih =>
    obtain ⟨pos, n, v⟩ := f
    rw [List.cons_append, fieldsWord_cons, fieldsWord_cons, ih, BitVec.or_assoc]

theorem field_toNat {n : Nat} (v : BitVec n) (pos : Nat) : field pos n v.toNat = place v pos := by
  rw [field, place, Nat.mod_eq_of_lt v.isLt, BitVec.ofNat_toNat]

theorem field_flag (b : Bool) (pos : Nat) : field pos 1 b.toNat = flagAt b pos := by
  rw [flagAt, ← field_toNat, BitVec.toNat_ofBool]

/-- A full-width field at bit 0. -/
theorem place_zero (v : Word) : place v 0 = v := by simp [place]

theorem fieldsWord_loField (t : Time) : fieldsWord (loField t) = loWord t := by
  rw [loField, fieldsWord_cons, fieldsWord_nil, BitVec.or_zero]
  refine BitVec.eq_of_toNat_eq ?_
  simp [field, loWord]

theorem fieldsWord_hiField (t : Time) : fieldsWord (hiField t) = place (hiHalf t) 0 := by
  rw [hiField, fieldsWord_cons, fieldsWord_nil, BitVec.or_zero, ← field_toNat, hiHalf, BitVec.extractLsb'_toNat,
    Nat.shiftRight_eq_div_pow]
  unfold field
  rw [Nat.mod_mod]

theorem place_shiftLeft {n : Nat} (v : BitVec n) (pos k : Nat) : place v pos <<< k = place v (pos + k) := by
  rw [place, place, BitVec.shiftLeft_add]

/-! ## Registers with fields of codes -/

theorem fieldsWord_denyInfo (d : DenyRecord) : fieldsWord (denyInfoFields d) = denyInfo d := by
  simp only [denyInfoFields, denyInfo, fieldsWord_cons, fieldsWord_nil, field_toNat, field_flag, BitVec.or_zero,
    BitVec.or_assoc]
  cases d.reason <;> rfl

theorem fieldsWord_faultInfo (f : FaultRecord) : fieldsWord (faultInfoFields f) = faultInfo f := by
  simp only [faultInfoFields, faultInfo, fieldsWord_cons, fieldsWord_nil, field_toNat, field_flag, BitVec.or_zero,
    BitVec.or_assoc]
  cases f.reason <;> rfl

theorem fieldsWord_conduitResult (r : ConduitResult) : fieldsWord (conduitResultFields r) = conduitResult r := by
  simp only [conduitResultFields, conduitResult, fieldsWord_cons, fieldsWord_nil, field_toNat, BitVec.or_zero,
    BitVec.or_assoc]
  cases r.code <;> rfl

theorem fieldsWord_tokenResult (r : TokenResult) : fieldsWord (tokenResultFields r) = tokenResult r := by
  simp only [tokenResultFields, tokenResult, fieldsWord_cons, fieldsWord_nil, field_toNat, BitVec.or_zero,
    BitVec.or_assoc]
  cases r.code <;> rfl

theorem fieldsWord_cadStatus (c : Cadence) : fieldsWord (cadStatusFields c) = cadStatus c := by
  have houtput : field 2 1 (if c.pulse = .off then 0 else 1) = flagAt c.output 2 := by
    unfold Cadence.output
    cases c.pulse <;> rfl
  simp only [cadStatusFields, cadStatus, fieldsWord_cons, fieldsWord_nil, field_toNat, field_flag, houtput, BitVec.or_zero,
    BitVec.or_assoc]
  cases c.state <;> rfl

theorem fieldsWord_live (m : Monitor) (lo : Nat) : fieldsWord (liveFields m lo) = liveBits m <<< lo := by
  have habsent : field lo 1 (if m.presence = .absent then 1 else 0) = flagAt (m.presence == .absent) lo := by
    rw [← field_flag]
    cases m.presence <;> rfl
  have hcause : ([.nothing, .expired, .reset] : List LastCause).idxOf m.lastCause = m.lastCause.code.toNat := by
    cases m.lastCause <;> rfl
  simp only [liveFields, liveBits, fieldsWord_cons, fieldsWord_nil, field_toNat, field_flag, habsent, hcause,
    BitVec.or_zero, BitVec.or_assoc, BitVec.shiftLeft_or_distrib, flagAt, place_shiftLeft]
  rw [Nat.zero_add, Nat.add_comm 1, Nat.add_comm 2]

theorem fieldsWord_bridgeStatus (s : State) (x : Port) :
    fieldsWord (fieldsOf s x .bridgeStatus) = bridgeStatus s x := by
  have hinit : field 0 1 (if s.phase = .run then 0 else 1) = flagAt (s.phase != .run) 0 := by
    rw [← field_flag]
    cases s.phase <;> rfl
  have hready : field 1 1 (if s.phase = .run then 1 else 0) = flagAt (s.phase == .run) 1 := by
    rw [← field_flag]
    cases s.phase <;> rfl
  simp only [fieldsOf, bridgeStatus, fieldsWord_cons, fieldsWord_nil, field_flag, hinit, hready, BitVec.or_zero,
    BitVec.or_assoc]
  cases x <;> rfl

theorem SlotState.idxOf_eq (v : SlotState) :
    ([.free, .filling, .ready, .visible, .reading] : List SlotState).idxOf v = v.code.toNat := by
  cases v <;> rfl

/-- Fields of one width taken in order, one for each entry of a list. -/
theorem fieldsWord_map {pos v : Nat → Nat} {n : Nat} {g : Nat → Word} (l : List Nat)
    (h : ∀ i ∈ l, field (pos i) n (v i) = g i) :
    fieldsWord (l.map fun i => (pos i, n, v i)) = l.foldl (fun acc i => acc ||| g i) 0 := by
  have fold (l : List Nat) (a : Word) (h : ∀ i ∈ l, field (pos i) n (v i) = g i) :
      l.foldl (fun acc i => acc ||| g i) a = a ||| fieldsWord (l.map fun i => (pos i, n, v i)) := by
    induction l generalizing a with
    | nil => simp [fieldsWord_nil]
    | cons i l ih =>
      rw [List.foldl_cons, ih _ fun j hj => h j (List.mem_cons_of_mem i hj), List.map_cons, fieldsWord_cons,
        h i List.mem_cons_self, BitVec.or_assoc]
  rw [fold l 0 h]
  exact BitVec.zero_or.symm

theorem eight_eq : ([0, 1, 2, 3, 4, 5, 6, 7] : List (BitVec 3)) = (List.range 8).map (BitVec.ofNat 3) := rfl

theorem sixteen_eq : sixteen = (List.range 16).map (BitVec.ofNat 4) := rfl

theorem fieldsWord_occupancy (c : Conduit) : fieldsWord (occupancyFields c) = cfgOccupancy c := by
  have hstate (i : Nat) (hi : i ∈ List.range 8) :
      field (3 * i) 3 (if i < c.slotCount then
        ([.free, .filling, .ready, .visible, .reading] : List SlotState).idxOf (c.slotState (BitVec.ofNat 3 i)) else 7) =
      place (occupancyField c (BitVec.ofNat 3 i)) (3 * (BitVec.ofNat 3 i).toNat) := by
    have hj : (BitVec.ofNat 3 i).toNat = i := by
      rw [BitVec.toNat_ofNat, Nat.mod_eq_of_lt (List.mem_range.mp hi)]
    rw [← field_toNat, hj, occupancyField, hj, SlotState.idxOf_eq]
    split <;> rfl
  have hlength (l : List (BitVec 3)) (pos : Nat) : field pos 4 l.length = place (BitVec.ofNat 4 l.length) pos := by
    rw [← field_toNat, BitVec.toNat_ofNat, field, field, Nat.mod_mod]
  rw [cfgOccupancy, eight_eq, List.foldl_map, ← fieldsWord_map (List.range 8) hstate, BitVec.or_assoc]
  refine (fieldsWord_append _ _).trans ?_
  rw [fieldsWord_cons, fieldsWord_cons, fieldsWord_nil, BitVec.or_zero, hlength, hlength]
  rfl

theorem fieldsWord_tokenState (s : State) (x : Port) : fieldsWord (fieldsOf s x .tokenState) = tokenState s := by
  have hfields : fieldsOf s x .tokenState = (List.range 16).map fun t =>
      (2 * t, 2, (holderCode (s.token (BitVec.ofNat 4 t)).holder).toNat) := by
    refine List.map_congr_left fun t _ => ?_
    cases (s.token (BitVec.ofNat 4 t)).holder with
    | none => rfl
    | some y => cases y <;> rfl
  have hholder (t : Nat) (ht : t ∈ List.range 16) :
      field (2 * t) 2 (holderCode (s.token (BitVec.ofNat 4 t)).holder).toNat =
      place (holderCode (s.token (BitVec.ofNat 4 t)).holder) (2 * (BitVec.ofNat 4 t).toNat) := by
    rw [field_toNat, BitVec.toNat_ofNat, Nat.mod_eq_of_lt (List.mem_range.mp ht)]
  rw [hfields, tokenState, sixteen_eq, List.foldl_map]
  exact fieldsWord_map (List.range 16) hholder

theorem fieldsWord_tokenWait (s : State) (x : Port) : fieldsWord (fieldsOf s x .tokenWait) = tokenWait s x := by
  have hwait (t : Nat) (ht : t ∈ List.range 16) :
      field t 1 ((s.token (BitVec.ofNat 4 t)).wait.get x).toNat =
        flagAt ((s.token (BitVec.ofNat 4 t)).wait.get x) (BitVec.ofNat 4 t).toNat := by
    rw [field_flag, BitVec.toNat_ofNat, Nat.mod_eq_of_lt (List.mem_range.mp ht)]
  rw [tokenWait, sixteen_eq, List.foldl_map]
  exact fieldsWord_map (List.range 16) hwait

theorem portNumber_eq (y : Port) : portNumber y = (bitOfPort y).toNat := by cases y <;> rfl

/-! ## Every register -/

/-- What a read returns is the word of the fields, but for CLAIM. -/
theorem regRead_eq_fieldsWord (s : State) (x : Port) {r : Reg} (hr : r ≠ .claim) :
    regRead s x r = fieldsWord (fieldsOf s x r) := by
  cases r with
  | claim => exact absurd rfl hr
  | bridgeStatus => exact (fieldsWord_bridgeStatus s x).symm
  | tokenState => exact (fieldsWord_tokenState s x).symm
  | tokenWait => exact (fieldsWord_tokenWait s x).symm
  | conduitResult => exact (fieldsWord_conduitResult _).symm
  | tokenResult => exact (fieldsWord_tokenResult _).symm
  | cfgOccupancy c => exact (fieldsWord_occupancy _).symm
  | cadStatus k => exact (fieldsWord_cadStatus _).symm
  | liveStatus =>
    refine ((fieldsWord_append _ _).trans ?_).symm
    rw [fieldsWord_live, fieldsWord_live, BitVec.shiftLeft_zero]
    rfl
  | slotInfoTimeLo | timeLo | timeSetLo | cadStartLo | cadNextLo | capTimeLo => exact (fieldsWord_loField _).symm
  | slotInfoTimeHi | timeSetHi | cadStartHi | cadNextHi => exact (fieldsWord_hiField _).symm
  | denyInfo | denyAddr | denyTime =>
    simp only [regRead, fieldsOf]
    cases (s.bank x).records.deny with
    | none => rfl
    | some d => simp [fieldsWord_denyInfo, fieldsWord_cons, fieldsWord_nil, field_toNat, place_zero]
  | faultInfo | faultAddr | faultTime =>
    simp only [regRead, fieldsOf]
    cases (s.bank x).records.fault with
    | none => rfl
    | some f => simp [fieldsWord_faultInfo, fieldsWord_cons, fieldsWord_nil, field_toNat, place_zero]
  | probeResult =>
    simp only [regRead, fieldsOf]
    cases (s.bank x).view.probeResult with
    | none => rfl
    | some r =>
      simp only [probeWord, fieldsWord_cons, fieldsWord_nil, field_toNat, field_flag, BitVec.or_zero, BitVec.or_assoc]
      rfl
  | cacheStatus =>
    simp only [regRead, fieldsOf]
    cases (s.bank x).view.sweep with
    | none => rfl
    | some i =>
      simp only [Machine.cacheStatus, fieldsWord_cons, fieldsWord_nil, field_toNat, BitVec.or_zero]
      rfl
  | counter n =>
    cases n <;> simp only [regRead, fieldsOf, fieldsWord_cons, fieldsWord_nil, field_toNat, BitVec.or_zero] <;> rfl
  | cfg f c =>
    cases f <;> simp only [regRead, cfgWord, fieldsOf, portNumber_eq, fieldsWord_cons, fieldsWord_nil, field_toNat,
      field_flag, BitVec.or_zero, BitVec.or_assoc]
  | cfgStatus c =>
    simp only [regRead, Machine.cfgStatus, fieldsOf, fieldsWord_cons, fieldsWord_nil, field_toNat, field_flag,
      BitVec.or_zero, BitVec.or_assoc]
  | capConfig k =>
    simp only [regRead, Machine.capConfig, fieldsOf, portNumber_eq, fieldsWord_cons, fieldsWord_nil, field_toNat,
      field_flag, BitVec.or_zero, BitVec.or_assoc]
  | capInfo k =>
    simp only [regRead, Machine.capInfo, fieldsOf, fieldsWord_cons, fieldsWord_nil, field_flag, BitVec.or_zero,
      BitVec.or_assoc]
    cases (s.capture k).cause <;> rfl
  | cutoffStatus =>
    simp only [regRead, Machine.cutoffStatus, fieldsOf, fieldsWord_cons, fieldsWord_nil, field_flag, BitVec.or_zero,
      BitVec.or_assoc]
    cases s.cutoff.cause <;> rfl
  | ident | portControl | invalidate | denyRelease | faultRelease | dismiss | doorbellOut | tokenCommand | conduitCommand
  | timeControl | cadCommand | cadAck | cutoffTrigger => rfl
  | _ => simp only [regRead, fieldsOf, fieldsWord_cons, fieldsWord_nil, field_toNat, field_flag, BitVec.or_zero, place_zero]

/-- Every other read is free of effect. -/
theorem readEffect_of_plain {r : Reg} (hc : r ≠ .claim) (ht : r ≠ .timeLo) (hk : ∀ k, r ≠ .capTimeLo k) (x : Port)
    (s : State) : readEffect x r s = s := by
  cases r with
  | claim => exact absurd rfl hc
  | timeLo => exact absurd rfl ht
  | capTimeLo k => exact absurd rfl (hk k)
  | _ => rfl

/-- Settles O8. -/
theorem plainRegisterAccess : Obligations.PlainRegisterAccess := by
  intro x r s h
  refine ⟨fun hc ht hk => ?_, fun hr w => performs_write_readOnly h hr w⟩
  rw [← regRead_eq_fieldsWord s x hc]
  exact performs_read h r (readEffect_of_plain hc ht hk x s)

end Sys2Proof.Machine
end

section
/-! The commands that write one register: what each refuses, stores, clears and counts (chapters 1, 3, 5 to 10). -/

namespace Sys2Proof.Machine

-- Elaborates the proofs in order, none beside the tests' kernel evaluations: each that waits there costs a thread's memory.
set_option deprecated.oldSectionVars true

variable {s : State} {x : Port} {c : Instr} {r : Reg} {v w : Word}

/-! ## Writes that are refused (R19 to R22, R72) -/

/-- A register write that a check refuses, by a row whose request spells the word `w`. -/
theorem faults_write (h : Takes x s) {f : FaultReason} (hc : c.request = some (solo x, writeTo r v)) (hv : v = w)
    (hw : writerOf r ≠ .readOnly) (hr : writeRefusal s x r w = some f) : Faults c x (writeTo r w) f s s := by
  subst hv
  refine faults_of_request h hc ?_
  simp only [access_writeTo, regAccess, hr, if_neg hw]

theorem writeRefusal_privilege (hr : writerOf r = .steward) (w : Word) : writeRefusal s .B r w = some .privilege :=
  if_pos ⟨hr, rfl⟩

theorem writeRefusal_locked (hl : s.configLock = true)
    (hr : inLockedSet r = true ∨ (r = .cutoffControl ∧ w.getLsbD 0 ≠ s.cutoff.pinEn)) :
    writeRefusal s .A r w = some .locked := by
  have hlock : lockRefuses s r w = true := by
    rcases hr with hr | ⟨rfl, hp⟩
    · simp [lockRefuses, hl, hr]
    · simp [lockRefuses, hl, show (bit w 0 != s.cutoff.pinEn) = true from bne_iff_ne.mpr hp]
  simp [writeRefusal, hlock]

/-- Settles O12. -/
theorem stewardRegistersRefusePortB : Obligations.StewardRegistersRefusePortB := fun r w s h hr =>
  faults_write h (request_ofTxn _ _) rfl (by rw [hr]; exact Writer.noConfusion) (writeRefusal_privilege hr w)

/-- Settles O13. -/
theorem lockedRegistersRefuseTheSteward : Obligations.LockedRegistersRefuseTheSteward := by
  intro r w s h hl hr
  have hw : writerOf r ≠ .readOnly := by
    rcases hr with hr | ⟨rfl, -⟩
    · cases r <;> cases hr <;> exact Writer.noConfusion
    · exact Writer.noConfusion
  exact faults_write h (request_ofTxn _ _) rfl hw (writeRefusal_locked hl hr)

/-- Settles O14. -/
theorem enabledConduitConfigIsBusy : Obligations.EnabledConduitConfigIsBusy := by
  intro f n w s h hl he
  refine faults_write h rfl rfl Writer.noConfusion ?_
  have hb : configBusy s (.cfg f n) = true := he
  simp [writeRefusal, lockRefuses, hl, hb]

/-! ## Writes that are performed -/

/-- The steward's write while CONFIG_LOCK is 0, of a register that is no conduit's configuration. -/
theorem performs_write_unlocked (h : Takes .A s) (hl : s.configLock = false) {u : State}
    (hc : c.request = some (solo .A, writeTo r v)) (hv : v = w) (hw : writerOf r ≠ .readOnly) (hb : configBusy s r = false)
    (hu : regWrite .A r w s = u) : Performs c .A 0 s u :=
  performs_write h hc hv hw (writeRefusal_unlocked hl hb) hu

/-- A write that either port may make. -/
theorem performs_write_either (h : Takes x s) {u : State} (hc : c.request = some (solo x, writeTo r v)) (hv : v = w)
    (hr : writerOf r = .either) (hu : regWrite x r w s = u) : Performs c x 0 s u := by
  refine performs_write h hc hv (by rw [hr]; exact Writer.noConfusion) ?_ hu
  cases r <;> cases hr <;> exact writeRefusal_own Writer.noConfusion rfl Reg.noConfusion rfl

/-! ## The steward's settings of the timebase and the cadences (R141, R143, R144) -/

theorem loWord_eq (t : Time) : loWord t = t.extractLsb' 0 32 := BitVec.setWidth_eq_extractLsb' (by decide)

theorem setWidth_16_eq (w : Word) : w.setWidth 16 = w.extractLsb' 0 16 := BitVec.setWidth_eq_extractLsb' (by decide)

theorem setWidth_8_eq (w : Word) : w.setWidth 8 = w.extractLsb' 0 8 := BitVec.setWidth_eq_extractLsb' (by decide)

theorem joinTime_setWidth (w : Word) (t : Time) : joinTime (w.setWidth 16) (loWord t) =
    w.extractLsb' 0 16 ++ t.extractLsb' 0 32 := by rw [setWidth_16_eq, loWord_eq]; rfl

/-- Settles O11. -/
theorem stewardSettingsAreStored : Obligations.StewardSettingsAreStored := by
  intro k w s h
  refine ⟨?lo, ?hi, ?period, ?width, fun hl => ⟨?config, ?startLo, ?startHi, ?cadPeriod, ?cadWidth⟩⟩
  case lo => exact performs_write_steward h (r := .timeSetLo) rfl rfl Writer.noConfusion rfl Reg.noConfusion rfl
  case hi =>
    refine performs_write_steward h (r := .timeSetHi) rfl rfl Writer.noConfusion rfl Reg.noConfusion ?_
    simp only [regWrite, writeTimeSetHi, joinTime_setWidth]
  case period => exact performs_write_steward h (r := .cadPeriodStage k) rfl rfl Writer.noConfusion rfl Reg.noConfusion rfl
  case width =>
    refine performs_write_steward h (r := .cadWidthStage k) rfl rfl Writer.noConfusion rfl Reg.noConfusion ?_
    simp only [regWrite, stageWidth, setWidth_16_eq]
  case config => exact performs_write_unlocked h hl (r := .cadConfig k) rfl rfl Writer.noConfusion rfl rfl
  case startLo => exact performs_write_unlocked h hl (r := .cadStartLo k) rfl rfl Writer.noConfusion rfl rfl
  case startHi =>
    refine performs_write_unlocked h hl (r := .cadStartHi k) rfl rfl Writer.noConfusion rfl ?_
    simp only [regWrite, writeCadStartHi, joinTime_setWidth]
  case cadPeriod => exact performs_write_unlocked h hl (r := .cadPeriod k) rfl rfl Writer.noConfusion rfl rfl
  case cadWidth =>
    refine performs_write_unlocked h hl (r := .cadWidth k) rfl rfl Writer.noConfusion rfl ?_
    simp only [regWrite, writeCadWidth, setWidth_16_eq]

/-! ## Records and counters (R59, R62, R66) -/

/-- Settles O26. -/
theorem recordsAreReleasedAndCountersCleared : Obligations.RecordsAreReleasedAndCountersCleared := by
  intro x w s h
  refine ⟨?deny, ?fault, ?cntDeny, ?cntFault, ?cntRefuse, ?cntLoss⟩
  case deny => exact performs_write_own h (r := .denyRelease) rfl rfl rfl
  case fault => exact performs_write_own h (r := .faultRelease) rfl rfl rfl
  case cntDeny => exact performs_write_own h (r := .counter .deny) rfl rfl rfl
  case cntFault => exact performs_write_own h (r := .counter .fault) rfl rfl rfl
  case cntRefuse => exact performs_write_own h (r := .counter .refuse) rfl rfl rfl
  case cntLoss => exact performs_write_own h (r := .counter .loss) rfl rfl rfl

/-! ## Rings and clearing writes (R11, R104, R116, R118, R119, R125) -/

/-- What a clearing write leaves: the flags it does not name, and those set at this instant. -/
theorem clearFlags_eq (flags fresh : BitVec 16) (w : Word) :
    clearFlags flags fresh w = (flags &&& ~~~(w.setWidth 16)) ||| (flags &&& fresh) := by
  rw [clearFlags, BitVec.not_and, BitVec.not_not, BitVec.and_or_distrib_left]

/-- Settles O34. -/
theorem ringsSetAndClearsReachOlderFlags : Obligations.RingsSetAndClearsReachOlderFlags := by
  intro x w s h
  refine ⟨?ring, ?bell, ?commit, ?drain, ?reset, ?token, ?line⟩
  case ring => exact performs_write_own h (r := .doorbellOut) rfl rfl rfl
  case bell => exact performs_write_own h (r := .doorbellIn) rfl rfl (by simp only [regWrite, clearBells, clearFlags_eq])
  case commit =>
    exact performs_write_own h (r := .commitNotice) rfl rfl (by simp only [regWrite, clearCommitNotice, clearFlags_eq])
  case drain =>
    exact performs_write_own h (r := .drainNotice) rfl rfl (by simp only [regWrite, clearDrainNotice, clearFlags_eq])
  case reset =>
    exact performs_write_own h (r := .resetNotice) rfl rfl (by simp only [regWrite, clearResetNotice, clearFlags_eq])
  case token =>
    exact performs_write_own h (r := .tokenNotice) rfl rfl (by simp only [regWrite, clearTokenNotice, clearFlags_eq])
  case line =>
    exact performs_write_own h (r := .linePending) rfl rfl (by simp only [regWrite, clearLatches, clearFlags_eq])

/-! ## Refused token commands (R111, R113, R114) -/

/-- A refusal leaves its result and counts in CNT_REFUSE. -/
theorem refuseToken_eq (x : Port) (code : TokenCode) (t : BitVec 4) (op : BitVec 2) (s : State) :
    refuseToken x code t op s = s.mapBank x fun b => refusedBank
      { b with tokens := { b.tokens with result := { code := code, token := t, op := op } } } := by
  rw [refuseToken, countRefusal_eq, State.setTokenResult, State.mapTokenPort, State.mapBank_mapBank]

/-- The four refusals of a token command, in their order. -/
def tokenRefusal (s : State) (x : Port) (op : BitVec 2) (t : BitVec 4) : Option TokenCode :=
  if s.isActive x = false then some .absent
  else if op = 3 ∧ x = .B then some .notPermitted
  else if op = 2 ∧ (s.token t).holder ≠ some x then some .notHolder
  else if op = 0 ∧ (s.token t).wait.get x = false then some .notWaiting
  else none

theorem tokenCommand_of_refusal {code : TokenCode}
    (hc : tokenRefusal s x (w.extractLsb' 0 2) (w.extractLsb' 4 4) = some code) :
    tokenCommand x w s = refuseToken x code (w.extractLsb' 4 4) (w.extractLsb' 0 2) s := by
  cases ha : s.isActive x with
  | false =>
    rw [tokenRefusal, if_pos ha] at hc
    cases hc
    simp only [tokenCommand, ha, Bool.not_false, if_true]
  | true =>
    have hops : ∀ op : BitVec 2, op = 0 ∨ op = 1 ∨ op = 2 ∨ op = 3 := by decide
    rcases hops (w.extractLsb' 0 2) with hop | hop | hop | hop <;> rw [hop] at hc ⊢
    · rw [tokenCommand_cancel ha hop]
      simp only [tokenRefusal, ha] at hc
      cases hw : (s.token (w.extractLsb' 4 4)).wait.get x with
      | false => simp [hw] at hc; subst hc; simp [cancelWait, hw]
      | true => simp [hw] at hc
    · simp [tokenRefusal, ha] at hc
    · rw [tokenCommand_release ha hop]
      by_cases hk : (s.token (w.extractLsb' 4 4)).holder = some x
      · simp [tokenRefusal, ha, hk] at hc
      · simp [tokenRefusal, ha, hk] at hc; subst hc; simp [releaseOwnToken, hk]
    · rw [tokenCommand_forceRelease ha hop]
      cases x with
      | A => simp [tokenRefusal, ha] at hc
      | B => simp [tokenRefusal, ha] at hc; subst hc; simp [forceReleaseToken]

/-- Settles O36. -/
theorem refusedTokenCommandsAreCounted : Obligations.RefusedTokenCommandsAreCounted := by
  intro x w s h op t refusal code hc
  exact performs_write_own h (request_ofTxn _ _) rfl ((tokenCommand_of_refusal hc).trans (refuseToken_eq ..))

/-! ## The timebase (R139 to R141) -/

theorem anyLive_iff (s : State) : anyLive s = true ↔ ∃ k, (s.cadence k).Live := by
  rw [anyLive, List.any_eq_true]
  simp only [mem_four, true_and, Cadence.live_iff]

/-- Settles O39. -/
theorem timebaseCommands : Obligations.TimebaseCommands := by
  intro x w s
  refine ⟨fun h => ?read, fun h => ⟨fun hl => ?prescale, fun hw => ⟨fun hlive => ?refused, fun hidle => ?load⟩,
    fun hw => ?clear⟩⟩
  case read =>
    refine performs_of_request h (t := readOf .timeLo) rfl ?_
    rw [access_readOf, regAccess_read, ← loWord_eq]
    rfl
  case prescale =>
    refine performs_write_unlocked h hl (r := .prescale) rfl rfl Writer.noConfusion rfl ?_
    simp only [regWrite, writePrescale, setWidth_8_eq]
  case refused =>
    have h0 : bit w 0 = true := hw
    refine performs_write_steward h (r := .timeControl) rfl (fixedWord_1_0 h0) Writer.noConfusion rfl Reg.noConfusion ?_
    have hany : ∀ b, anyLive { s with timebase := b } = true := fun b => (anyLive_iff _).mpr hlive
    simp only [regWrite, writeTimeControl, h0, if_true]
    split
    · rw [requestLoad, if_pos (hany _)]
    · rw [requestLoad, if_pos (hany _)]
  case load =>
    have h0 : bit w 0 = true := hw
    refine performs_write_steward h (r := .timeControl) rfl (fixedWord_1_0 h0) Writer.noConfusion rfl Reg.noConfusion ?_
    have hany : ∀ b, ¬ anyLive { s with timebase := b } = true := fun b ha => by
      obtain ⟨k, hk⟩ := (anyLive_iff _).mp ha
      obtain ⟨h1, h2⟩ := hidle k
      exact hk.elim h1 h2
    simp only [regWrite, writeTimeControl, h0, if_true]
    split
    · rw [requestLoad, if_neg (hany _)]
    · rw [requestLoad, if_neg (hany _)]
  case clear =>
    obtain ⟨h1, h0⟩ : bit w 1 = true ∧ bit w 0 = false := by simpa [Instr.wellFormed] using hw
    refine performs_write_steward h (r := .timeControl) rfl (fixedWord_2_1 h1 h0) Writer.noConfusion rfl Reg.noConfusion ?_
    simp [regWrite, writeTimeControl, h0, h1]

/-! ## Cadence commands (R145, R146, R149, R151) -/

/-- The clear bits of a CAD_COMMAND word, sparing what was set at this instant. -/
def Cadence.spared (w : Word) (c : Cadence) : Cadence :=
  { c with
    cmdErr := c.cmdErr && !w.getLsbD 8, late := c.late && !w.getLsbD 9
    overlap := c.overlap && !(w.getLsbD 10 && !c.freshOverlap)
    ackOverrun := c.ackOverrun && !(w.getLsbD 11 && !c.freshAckOverrun) }

theorem Cadence.clearFlags_eq (c : Cadence) (w : Word) : c.clearFlags w = c.spared w := by
  simp only [Cadence.clearFlags, Cadence.spared, Bool.not_and, Bool.not_not]
  rfl

theorem writeCadCommand_eq (k : BitVec 2) (w : Word) (s : State) : writeCadCommand k w s =
    let t := if bit w 1 then stopCadence k (s.mapCadence k (Cadence.spared w)) else s.mapCadence k (Cadence.spared w)
    if bit w 0 then armCadence k t else t := by
  simp only [writeCadCommand, Cadence.clearFlags_eq]

/-- A CAD_COMMAND write with neither ARM nor STOP. -/
theorem writeCadCommand_clear (h0 : bit w 0 = false) (h1 : bit w 1 = false) (k : BitVec 2) (s : State) :
    writeCadCommand k w s = s.mapCadence k (Cadence.spared w) := by
  simp [writeCadCommand_eq, h0, h1]

/-- Settles O41. -/
theorem cadenceFlagsAndAcknowledgement : Obligations.CadenceFlagsAndAcknowledgement := by
  intro x k w s
  refine ⟨fun h => performs_write_either h (r := .cadAck k) rfl rfl rfl rfl, fun h i hi hw => ?_⟩
  have clears (hc : i.request = some (solo .A, writeTo (.cadCommand k) w)) (h0 : bit w 0 = false) (h1 : bit w 1 = false) :
      Performs i .A 0 s (s.mapCadence k (Cadence.spared w)) :=
    performs_write_steward h hc rfl Writer.noConfusion rfl Reg.noConfusion (writeCadCommand_clear h0 h1 k s)
  have hreq : i.request = some (solo .A, writeTo (.cadCommand k) w) ∧ bit w 0 = false ∧ bit w 1 = false := by
    simp only [List.mem_cons, List.not_mem_nil, or_false] at hi
    rcases hi with rfl | rfl | rfl | rfl
    · obtain ⟨⟨h8, h0⟩, h1⟩ : (bit w 8 = true ∧ bit w 0 = false) ∧ bit w 1 = false := by simpa [Instr.wellFormed] using hw
      exact ⟨by rw [Instr.request, fixedWord_x100_x003 h8 h0 h1], h0, h1⟩
    · obtain ⟨⟨⟨h9, h0⟩, h1⟩, h8⟩ : ((bit w 9 = true ∧ bit w 0 = false) ∧ bit w 1 = false) ∧ bit w 8 = false := by
        simpa [Instr.wellFormed] using hw
      exact ⟨by rw [Instr.request, fixedWord_x200_x103 h9 h0 h1 h8], h0, h1⟩
    · obtain ⟨⟨⟨⟨h10, h0⟩, h1⟩, h8⟩, h9⟩ :
          (((bit w 10 = true ∧ bit w 0 = false) ∧ bit w 1 = false) ∧ bit w 8 = false) ∧ bit w 9 = false := by
        simpa [Instr.wellFormed] using hw
      exact ⟨by rw [Instr.request, fixedWord_x400_x303 h10 h0 h1 h8 h9], h0, h1⟩
    · obtain ⟨⟨⟨⟨⟨h11, h0⟩, h1⟩, h8⟩, h9⟩, h10⟩ : ((((bit w 11 = true ∧ bit w 0 = false) ∧ bit w 1 = false) ∧
          bit w 8 = false) ∧ bit w 9 = false) ∧ bit w 10 = false := by
        simpa [Instr.wellFormed] using hw
      exact ⟨by rw [Instr.request, fixedWord_x800_x703 h11 h0 h1 h8 h9 h10], h0, h1⟩
  obtain ⟨hc, h0, h1⟩ := hreq
  exact clears hc h0 h1

theorem startLate_eq (start now : Time) :
    startLate start now = decide (start - now = 0 ∨ 2 ^ 47 ≤ (start - now).toNat) := by
  have hmsb : (start - now).getLsbD 47 = decide (2 ^ 47 ≤ (start - now).toNat) := BitVec.msb_eq_decide (start - now)
  rw [startLate, hmsb, Bool.decide_or]
  rfl

theorem armAccepted_iff (k : BitVec 2) (s : State) : armAccepted k s = true ↔
    ¬ (s.cadence k).Live ∧ s.cutoff.active = false ∧ s.timebase.pendingLoad = none := by
  simp [armAccepted, ← Cadence.live_iff, and_assoc]

theorem Cadence.armed_eq (c : Cadence) (now : Time) : c.armed now =
    { c with
      state := .armed, cmdErr := false, late := decide (c.start - now = 0 ∨ 2 ^ 47 ≤ (c.start - now).toNat)
      overlap := false, ackOverrun := false, freshOverlap := false, freshAckOverrun := false, pulse := .off, ticks := 0
      next := if c.start - now = 0 ∨ 2 ^ 47 ≤ (c.start - now).toNat then now + 1 else c.start } := by
  simp only [Cadence.armed, startLate_eq, decide_eq_true_eq]

/-- Settles O42. -/
theorem armStartsOrRefuses : Obligations.ArmStartsOrRefuses := by
  intro k w s h hw h1 c live d
  have h0 : bit w 0 = true := hw
  have h1 : bit w 1 = false := h1
  have harm : writeCadCommand k w s = armCadence k (s.mapCadence k (Cadence.spared w)) := by
    simp [writeCadCommand_eq, h0, h1]
  have hlive : ((s.mapCadence k (Cadence.spared w)).cadence k).Live ↔ live := by
    rw [State.cadence_mapCadence_same]; rfl
  have performs {u : State} (hu : armCadence k (s.mapCadence k (Cadence.spared w)) = u) :
      Performs (.arm (solo .A) k w) .A 0 s u :=
    performs_write_steward h (r := .cadCommand k) rfl (fixedWord_1_0 h0) Writer.noConfusion rfl Reg.noConfusion
      (harm.trans hu)
  refine ⟨fun hok => performs ?_, fun hno => performs ?_⟩
  · rw [armCadence, if_pos ((armAccepted_iff _ _).mpr ⟨mt hlive.mp hok.1, hok.2⟩), State.mapCadence_mapCadence]
    refine State.mapCadence_congr ?_
    rw [Cadence.armed_eq]
    rfl
  · rw [armCadence, if_neg, State.mapCadence_mapCadence]
    · rfl
    · rw [armAccepted_iff, hlive]
      rintro ⟨hl, hcut, hload⟩
      rcases hno with hno | hno | hno
      · exact hl hno
      · exact absurd hno (by rw [show s.cutoff.active = false from hcut]; decide)
      · exact hno hload

/-- Settles O43: the clears, then STOP, then ARM on what STOP left. -/
theorem stopFlushesTheBoundConduits : Obligations.StopFlushesTheBoundConduits := by
  intro k w s h h1 cleared stopped c
  have h1 : bit w 1 = true := h1
  have hlive : (cleared.cadence k).Live ↔ c.Live := by
    show ((s.mapCadence k (Cadence.spared w)).cadence k).Live ↔ _
    rw [State.cadence_mapCadence_same]; rfl
  refine ⟨stopCadence k cleared, fun hl => stopCadence_live (hlive.mpr hl), fun hl => stopCadence_not_live ?_, fun hw => ?_,
    fun hw => ?_⟩
  · rw [hlive]
    rintro (h | h) <;> rcases hl with hl | hl <;> rw [hl] at h <;> cases h
  · obtain ⟨-, h0⟩ : bit w 1 = true ∧ bit w 0 = false := by simpa [Instr.wellFormed] using hw
    refine performs_write_steward h (r := .cadCommand k) rfl (fixedWord_2_1 h1 h0) Writer.noConfusion rfl Reg.noConfusion ?_
    show writeCadCommand k w s = _
    simp only [writeCadCommand_eq, h0, h1, if_true]
    rfl
  · have h0 : bit w 0 = true := hw
    have performs {u : State} (hu : armCadence k (stopCadence k cleared) = u) : Performs (.arm (solo .A) k w) .A 0 s u := by
      refine performs_write_steward h (r := .cadCommand k) rfl (fixedWord_1_0 h0) Writer.noConfusion rfl Reg.noConfusion ?_
      show writeCadCommand k w s = _
      simp only [writeCadCommand_eq, h0, h1, if_true]
      exact hu
    obtain ⟨hidle, hcut, hbase⟩ : ¬ ((stopCadence k cleared).cadence k).Live ∧ (stopCadence k cleared).cutoff = s.cutoff ∧
        (stopCadence k cleared).timebase = s.timebase := by
      by_cases hl : (cleared.cadence k).Live
      · obtain ⟨hcads, hcut, hbase⟩ := (stopCadence_live hl).sameTiming
        refine ⟨?_, hcut, hbase⟩
        rw [State.cadence, hcads]
        show ¬ ((cleared.mapCadence k fun c => { c with state := .stopped, pulse := .off }).cadence k).Live
        rw [State.cadence_mapCadence_same]
        rintro (h | h) <;> cases h
      · rw [stopCadence_not_live hl]
        exact ⟨hl, rfl, rfl⟩
    have hok : armAccepted k (stopCadence k cleared) = true ↔ s.cutoff.active = false ∧ s.timebase.pendingLoad = none := by
      rw [armAccepted_iff, hcut, hbase]
      exact and_iff_right hidle
    refine ⟨fun hc hp => performs ?_, fun hno => performs ?_⟩
    · rw [armCadence, if_pos (hok.mpr ⟨hc, hp⟩), State.time, hbase]
    · rw [armCadence, if_neg]
      rw [hok]
      rintro ⟨hc, hp⟩
      rcases hno with hno | hno
      · rw [hc] at hno; cases hno
      · exact hno hp

end Sys2Proof.Machine
end

section
/-! Conduits configured, enabled and disabled, and the six conduit commands (chapters 4 and 5). -/

namespace Sys2Proof.Machine

-- Elaborates the proofs in order, none beside the tests' kernel evaluations: each that waits there costs a thread's memory.
set_option deprecated.oldSectionVars true

variable {s : State} {x : Port} {w : Word} {n : BitVec 4} {op : BitVec 4} {i : BitVec 3} {c : Conduit}

/-! ## Enabling and disabling (R73 to R75, R85) -/

theorem State.mapConduit_eq_self {f : Conduit → Conduit} (h : f (s.conduit n) = s.conduit n) : s.mapConduit n f = s :=
  congrArg (fun c => { s with conduits := c }) (Table.map_eq_self h)

/-- The enable checks, as the code of the first that fails; 0 where all pass. -/
theorem Conduit.enableError_eq (c : Conduit) :
    let error : BitVec 2 :=
      if c.mode = 3 then 1 else if c.mode = 2 ∧ c.depth = 0 then 2
      else if 0x40000 < c.base.toNat * 16 + c.slotCount * ((c.size.toNat + 1) * 16) then 3 else 0
    c.enableError = if error ≠ 0 then some error else none := by
  simp only [Conduit.enableError, Conduit.slotSize, storeSize]
  split
  · rfl
  · split
    · rfl
    · split <;> (rename_i hfit; simp only [hfit, if_true, if_false]; rfl)

/-- Outside MODE 3 the slot count is 1 but in LATEST and QUEUE mode. -/
theorem Conduit.slotCount_eq (h : c.mode ≠ 3) : c.slotCount =
    if c.mode = 1 then (if c.timed then 4 else 3) else if c.mode = 2 then c.depth.toNat + 1 else 1 := by
  have hmode : ∀ m : BitVec 2, m = 0 ∨ m = 1 ∨ m = 2 ∨ m = 3 := by decide
  rcases hmode c.mode with hm | hm | hm | hm <;> simp [Conduit.slotCount, hm]
  exact absurd hm h

/-- Settles O27. -/
theorem conduitsAreConfiguredAndEnabled : Obligations.ConduitsAreConfiguredAndEnabled := by
  intro n w s h c count error
  refine ⟨fun hl he => ⟨?mode, ?base, ?slot⟩, fun hw => ?enable⟩
  case mode => exact performs_write_unlocked h hl (r := .cfg .mode n) rfl rfl Writer.noConfusion he rfl
  case base => exact performs_write_unlocked h hl (r := .cfg .base n) rfl rfl Writer.noConfusion he rfl
  case slot => exact performs_write_unlocked h hl (r := .cfg .slot n) rfl rfl Writer.noConfusion he rfl
  case enable =>
    have h0 : bit w 0 = true := hw
    refine performs_write_steward h (r := .cfgEnable n) rfl (fixedWord_1_0 h0) Writer.noConfusion rfl Reg.noConfusion ?_
    show writeCfgEnable n w s = _
    rw [writeCfgEnable, if_pos h0, enableConduit]
    cases he : c.enabled with
    | true => exact State.mapConduit_eq_self (if_pos he)
    | false =>
      refine State.mapConduit_congr ?_
      have herr : c.enableError = if error ≠ 0 then some error else none := by
        by_cases h3 : c.mode = 3
        · simp only [error, Conduit.enableError, h3, if_true]; rfl
        · simp only [error, count, ← Conduit.slotCount_eq h3]
          exact c.enableError_eq
      have he' : (s.conduit n).enabled = false := he
      simp only [he', Bool.false_eq_true, if_false]
      show (match c.enableError with | some e => _ | none => _) = _
      rw [herr]
      by_cases hfail : error ≠ 0
      · simp only [if_pos hfail]
      · have hfits : c.mode ≠ 3 := fun h3 => hfail (by simp only [error, h3, if_true]; decide)
        simp only [if_neg hfail, Conduit.freshTable, count, ← Conduit.slotCount_eq hfits]
        rfl

/-- Some slot is in flight where some slot of the conduit is not FREE. -/
theorem Conduit.inFlight_iff (c : Conduit) :
    c.inFlight = true ↔ ∃ i : BitVec 3, i.toNat < c.slotCount ∧ c.slotState i ≠ .free := by
  simp only [Conduit.inFlight, List.any_eq_true, Conduit.mem_slots, bne_iff_ne]

/-- Settles O28. -/
theorem disableDiscardsWhatIsInFlight : Obligations.DisableDiscardsWhatIsInFlight := by
  intro n w s h hw c t busy
  have h0 : bit w 0 = false := by simpa [Instr.wellFormed] using hw
  have performs {u : State} (hu : disableConduit n s = u) : Performs (.conduitDisable (solo .A) n w) .A 0 s u := by
    refine performs_write_steward h (r := .cfgEnable n) rfl (fixedWord_0_1 h0) Writer.noConfusion rfl Reg.noConfusion ?_
    show writeCfgEnable n w s = u
    rw [writeCfgEnable, h0, if_neg Bool.false_ne_true, hu]
  have enabled (he : c.enabled = true) : disableConduit n s =
      if c.inFlight = true then ((s.mapConduit n (·.disabled)).noteReset .A n).noteReset .B n
      else s.mapConduit n (·.disabled) := by
    simp only [disableConduit, show (s.conduit n).enabled = true from he, Bool.not_true, Bool.false_eq_true, if_false]
    rfl
  have hdisabled : s.mapConduit n (·.disabled) = t := State.mapConduit_congr rfl
  refine ⟨fun he => performs ?_, fun he hb => performs ?_, fun he hb => performs ?_⟩
  · simp only [disableConduit, show (s.conduit n).enabled = false from he, Bool.not_false, if_true]
  · rw [enabled he, if_neg (mt c.inFlight_iff.mp hb), hdisabled]
  · rw [enabled he, if_pos (c.inFlight_iff.mpr hb), hdisabled]

/-! ## The refusal checks (R89) -/

/-- The refusal checks of a conduit command, in their order. -/
def refusedCode (s : State) (x : Port) (op n : BitVec 4) (len : BitVec 11) : Option ConduitCode :=
  let c := s.conduit n
  if op = 0 ∨ 7 ≤ op.toNat then some .badOp
  else if c.enabled = false then some .disabled
  else if s.isActive x = false then some .absent
  else if x ≠ (if op.toNat ≤ 3 then c.producer else c.producer.other) then some .notOwner
  else if (op = 1 ∨ op = 4) ∧ (if x = c.producer then c.filling else c.reading) ≠ none then some .alreadyOpen
  else if ¬ (op = 1 ∨ op = 4) ∧ (if x = c.producer then c.filling else c.reading) = none then some .notOpen
  else if op = 2 ∧ (len = 0 ∨ (c.size.toNat + 1) * 16 < len.toNat) then some .badLength
  else none

/-- A port that is not in the role of an operation. -/
theorem notOwner_iff (x p : Port) (op : BitVec 4) :
    ((isProducerOp op && x != p) || (!isProducerOp op && x == p)) = true ↔
      x ≠ (if op.toNat ≤ 3 then p else p.other) := by
  by_cases ho : op.toNat ≤ 3
  · simp [isProducerOp, ho]
  · cases x <;> cases p <;> simp [isProducerOp, ho, Port.other]

theorem conduitRefusal_eq (s : State) (x : Port) (op n : BitVec 4) (len : BitVec 11) :
    conduitRefusal s x op n len = refusedCode s x op n len := by
  simp only [conduitRefusal, refusedCode, notOwner_iff]
  simp only [isBadOp, isOpening, Conduit.openSlot, Bool.or_eq_true, Bool.and_eq_true,
    Bool.not_eq_true', beq_iff_eq, decide_eq_true_iff, Option.isSome_iff_ne_none, Option.isNone_iff_eq_none,
    Bool.or_eq_false_iff, beq_eq_false_iff_ne, not_or, ne_eq]
  rfl

/-- A refusal leaves its result and counts in CNT_REFUSE. -/
theorem refuseConduit_eq (s : State) (x : Port) (code : ConduitCode) (n op : BitVec 4) (i : BitVec 3) :
    (s.setConduitResult x code n op i).countEvent x .refuse = s.mapBank x fun b => refusedBank
      { b with conduits := { b.conduits with result := { code := code, conduit := n, op := op, slot := i } } } := by
  rw [countRefusal_eq, State.setConduitResult, State.mapConduitPort, State.mapBank_mapBank]

theorem conduitCommand_refused {code : ConduitCode}
    (h : refusedCode s x (w.extractLsb' 0 4) (w.extractLsb' 4 4) (w.extractLsb' 8 11) = some code) :
    conduitCommand x w s = s.mapBank x fun b => refusedBank
      { b with conduits := { b.conduits with
          result := { code := code, conduit := w.extractLsb' 4 4, op := w.extractLsb' 0 4, slot := 0 } } } := by
  simp only [conduitCommand, conduitRefusal_eq, h, refuseConduit_eq]

/-- Settles O33. -/
theorem refusedConduitCommandsAreCounted : Obligations.RefusedConduitCommandsAreCounted := by
  intro x w s h op n len c held role refusal refused
  refine ⟨fun code hc => ?_, fun hw => ?_⟩
  · exact performs_write_own h (request_ofTxn _ _) rfl (conduitCommand_refused hc)
  · have hbad : isBadOp (w.extractLsb' 0 4) = true := hw
    have hbad' : w.extractLsb' 0 4 = 0 ∨ 7 ≤ (w.extractLsb' 0 4).toNat := by simpa [isBadOp] using hbad
    have hreq : (Instr.badOp (solo x) w).request = some (solo x, writeTo .conduitCommand w) := by
      rw [Instr.request, badOpWord_eq hbad]
    exact performs_write_own h hreq rfl (conduitCommand_refused (if_pos hbad'))

/-! ## The commands past the checks -/

/-- A conduit command of operation `op` that the checks let pass. -/
theorem performs_conduitCommand (h : Takes x s) {c : Instr} {u : State} {op : BitVec 4}
    (hc : c.request = some (solo x, writeTo .conduitCommand (commandWord op w))) (hop : w.extractLsb' 0 4 = op)
    (hok : refusedCode s x op (w.extractLsb' 4 4) (w.extractLsb' 8 11) = none)
    (hu : (if op = 1 then openWriteEffect x (w.extractLsb' 4 4) s
      else if op = 2 then commitEffect x (w.extractLsb' 4 4) (w.extractLsb' 8 11) s
      else if op = 3 then abandonEffect x (w.extractLsb' 4 4) s
      else if op = 4 then openReadEffect x (w.extractLsb' 4 4) s
      else if op = 5 then releaseEffect x (w.extractLsb' 4 4) s
      else returnEffect x (w.extractLsb' 4 4) s) = u) : Performs c x 0 s u := by
  rw [commandWord_eq hop] at hc
  refine performs_write_own h hc rfl ?_
  subst hop
  show conduitCommand x w s = u
  simp only [conduitCommand, conduitRefusal_eq, hok]
  exact hu

/-- The producer passes the checks where the conduit is enabled and the slot is open, or free to be. -/
theorem refusedCode_producer {len : BitVec 11} (he : (s.conduit n).enabled = true) (ha : s.isActive x = true)
    (hx : x = (s.conduit n).producer)
    (hop : (op = 1 ∧ (s.conduit n).filling = none) ∨
      ((op = 3 ∨ (op = 2 ∧ len ≠ 0 ∧ len.toNat ≤ ((s.conduit n).size.toNat + 1) * 16)) ∧ (s.conduit n).filling ≠ none)) :
    refusedCode s x op n len = none := by
  simp only [refusedCode, he, ha, ← hx, if_true]
  rcases hop with ⟨rfl, hf⟩ | ⟨rfl | ⟨rfl, h0, hl⟩, hf⟩
  · simp [hf]
  · simp [hf]
  · simpa [hf, hl] using h0

/-- The consumer passes the checks where the conduit is enabled and the slot is open, or free to be. -/
theorem refusedCode_consumer {len : BitVec 11} (he : (s.conduit n).enabled = true) (ha : s.isActive x = true)
    (hx : x ≠ (s.conduit n).producer)
    (hop : (op = 4 ∧ (s.conduit n).reading = none) ∨ ((op = 5 ∨ op = 6) ∧ (s.conduit n).reading ≠ none)) :
    refusedCode s x op n len = none := by
  have hrole : x = (s.conduit n).producer.other := (Port.eq_or_eq_other x _).resolve_left hx
  simp only [refusedCode, he, ha, if_neg hx]
  rcases hop with ⟨rfl, hr⟩ | ⟨rfl | rfl, hr⟩
  · simp [hr, ← hrole]
  · simp [hr, ← hrole]
  · simp [hr, ← hrole]

/-! ## OPEN_WRITE (R94, R96, R99) -/

/-- How far slot `i` stands from where the search of OPEN_WRITE begins: after the cursor on a QUEUE conduit, at slot 0
on the others. -/
def Conduit.searchRank (c : Conduit) (i : BitVec 3) : Nat :=
  if c.mode = 2 then (i.toNat + 8 * c.slotCount - (c.cursor.toNat + 1)) % c.slotCount else i.toNat

/-- A step of `j < n` from `a` around a circle of `n` places is recovered from where it ends. -/
theorem circle_distance {a n j : Nat} (ha : a ≤ 8 * n) (hj : j < n) : ((a + j) % n + 8 * n - a) % n = j := by
  rw [Nat.add_sub_assoc ha, Nat.mod_add_mod, show a + j + (8 * n - a) = j + n * 8 by omega, Nat.add_mul_mod_self_left,
    Nat.mod_eq_of_lt hj]

/-- Every place of the circle is reached by a step from `a`. -/
theorem circle_reach {a n i : Nat} (ha : a ≤ 8 * n) (hi : i < n) : (a + (i + 8 * n - a) % n) % n = i := by
  rw [Nat.add_mod_mod, show a + (i + 8 * n - a) = i + n * 8 by omega, Nat.add_mul_mod_self_left, Nat.mod_eq_of_lt hi]

theorem Conduit.cursor_le (c : Conduit) (h : 0 < c.slotCount) : c.cursor.toNat + 1 ≤ 8 * c.slotCount := by
  have := c.cursor.isLt; omega

/-- The search of OPEN_WRITE meets every slot of the conduit. -/
theorem Conduit.mem_candidates_of_lt (h : i.toNat < c.slotCount) : i ∈ c.candidates := by
  rw [Conduit.candidates]
  split
  · have hc := c.cursor_le (Nat.zero_lt_of_lt h)
    refine List.mem_map.mpr ⟨(i.toNat + 8 * c.slotCount - (c.cursor.toNat + 1)) % c.slotCount,
      List.mem_range.mpr (Nat.mod_lt _ (Nat.zero_lt_of_lt h)), ?_⟩
    rw [circle_reach hc h, BitVec.ofNat_toNat, BitVec.setWidth_eq]
  · exact Conduit.mem_slots.mpr h

/-- The search of OPEN_WRITE goes by rank. -/
theorem Conduit.candidates_sorted (c : Conduit) : c.candidates.Pairwise fun i j => c.searchRank i < c.searchRank j := by
  by_cases hm : c.mode = 2
  · have hrank : ∀ j < c.slotCount,
        c.searchRank (BitVec.ofNat 3 ((c.cursor.toNat + 1 + j) % c.slotCount)) = j := by
      intro j hj
      have hlt : (c.cursor.toNat + 1 + j) % c.slotCount < 8 :=
        (Nat.mod_lt _ (Nat.zero_lt_of_lt hj)).trans_le c.slotCount_le
      rw [Conduit.searchRank, if_pos hm, BitVec.toNat_ofNat, Nat.mod_eq_of_lt hlt,
        circle_distance (c.cursor_le (Nat.zero_lt_of_lt hj)) hj]
    rw [Conduit.candidates, if_pos hm, List.pairwise_map]
    refine List.Pairwise.imp_of_mem (fun {a b} ha hb hab => ?_) List.pairwise_lt_range
    rw [hrank a (List.mem_range.mp ha), hrank b (List.mem_range.mp hb)]
    exact hab
  · simp only [Conduit.candidates, Conduit.searchRank, if_neg hm]
    exact List.Pairwise.filter _ (by decide)

/-- What a search finds comes first, in a list that goes by rank. -/
theorem eq_of_find?_of_le {α : Type} {p : α → Bool} {rank : α → Nat} {l : List α} {a b : α}
    (hs : l.Pairwise fun i j => rank i < rank j) (ha : l.find? p = some a) (hb : b ∈ l) (hp : p b = true)
    (hle : rank b ≤ rank a) : a = b := by
  obtain ⟨-, before, after, rfl, hbefore⟩ := List.find?_eq_some_iff_append.mp ha
  rcases List.mem_append.mp hb with h | h
  · have := hbefore b h
    rw [hp] at this
    cases this
  · rcases List.mem_cons.mp h with h | h
    · exact h.symm
    · have hlt := (List.pairwise_cons.mp (List.pairwise_append.mp hs).2.1).1 b h
      omega

/-- OPEN_WRITE takes the FREE slot of the least rank. -/
theorem Conduit.firstFree_eq_some (hi : i.toNat < c.slotCount) (hf : c.slotState i = .free)
    (hmin : ∀ j : BitVec 3, j.toNat < c.slotCount ∧ c.slotState j = .free → c.searchRank i ≤ c.searchRank j) :
    c.firstFree = some i := by
  have hp : (c.slotState i == .free) = true := beq_iff_eq.mpr hf
  cases hfound : c.firstFree with
  | none => exact absurd hp (List.find?_eq_none.mp hfound i (Conduit.mem_candidates_of_lt hi))
  | some j =>
    rw [eq_of_find?_of_le c.candidates_sorted hfound (Conduit.mem_candidates_of_lt hi) hp
      (hmin j (Conduit.firstFree_spec hfound))]

theorem Conduit.firstFree_eq_none (h : ∀ i : BitVec 3, ¬ (i.toNat < c.slotCount ∧ c.slotState i = .free)) :
    c.firstFree = none := by
  cases hfound : c.firstFree with
  | none => rfl
  | some j => exact absurd (Conduit.firstFree_spec hfound) (h j)

/-- A slot description and a result after it are two fields of the port's bank. -/
theorem setConduitResult_setSlotInfo (s : State) (x : Port) (d : Descriptor) (code : ConduitCode) (n op : BitVec 4)
    (i : BitVec 3) : (s.setSlotInfo x d).setConduitResult x code n op i = s.mapBank x fun b =>
      { b with conduits := { b.conduits with info := d, result := { code := code, conduit := n, op := op, slot := i } } } := by
  rw [State.setConduitResult, State.setSlotInfo, State.mapConduitPort, State.mapConduitPort, State.mapBank_mapBank]

/-- Settles O29. -/
theorem openWriteTakesTheFirstFreeSlot : Obligations.OpenWriteTakesTheFirstFreeSlot := by
  intro x w s h hw n c free rank result he ha hx hf
  have performs {u : State} (hu : openWriteEffect x n s = u) : Performs (.openWrite (solo x) w) x 0 s u :=
    performs_conduitCommand h rfl (beq_iff_eq.mp hw) (refusedCode_producer he ha hx (.inl ⟨rfl, hf⟩)) hu
  refine ⟨fun hfull => performs ?_, fun i hi hmin => performs ?_⟩
  · have hnone : (s.conduit n).firstFree = none := Conduit.firstFree_eq_none hfull
    simp only [openWriteEffect, hnone]
    rfl
  · have hsome : (s.conduit n).firstFree = some i := Conduit.firstFree_eq_some hi.1 hi.2 hmin
    simp only [openWriteEffect, hsome]
    rfl

/-! ## COMMIT, OPEN_READ, and the slots given back (R92 to R103) -/

/-- Settles O30. -/
theorem commitStampsAndHandsOver : Obligations.CommitStampsAndHandsOver := by
  intro x w i s h hw n len c d gate he ha hx hf h0 hl u
  let t := if gate then u else u.noteCommit x.other n
  have ht : ((s.mapConduit n (·.committed i d gate)).setSlotInfo x d).setConduitResult x .done n 2 i = u := by
    rw [setConduitResult_setSlotInfo]
    refine congrArg (fun s : State => s.mapBank x _) (State.mapConduit_congr ?_)
    simp only [Conduit.committed, Conduit.isLatest, beq_iff_eq]
    cases gate <;> rfl
  obtain ⟨hcap, hrest⟩ := captureWhere_eq (fun ch => ch.source == 2 && ch.csel == n) s.time t
  have htcap (k : BitVec 2) : t.capture k = s.capture k := by
    simp only [t]
    split <;> rfl
  refine ⟨(captureWhere (fun ch => ch.source == 2 && ch.csel == n) s.time t).captures, fun k => (hcap k).trans ?_, ?_⟩
  · simp only [htcap, Bool.and_eq_true, beq_iff_eq]
    rfl
  · have hsome : (s.conduit n).filling ≠ none := Option.ne_none_iff_exists'.mpr ⟨i, hf⟩
    refine performs_conduitCommand h rfl (beq_iff_eq.mp hw)
      (refusedCode_producer he ha hx (.inr ⟨.inr ⟨rfl, h0, hl⟩, hsome⟩)) ?_
    show commitEffect x n len s = _
    have hf' : (s.conduit n).filling = some i := hf
    have hx' : (s.conduit n).consumer = x.other := by rw [Conduit.consumer, hx]
    simp only [commitEffect, hf', hx']
    exact (congrArg (fun v : State => captureFromCommit n s.time (if gate then v else v.noteCommit x.other n)) ht).trans hrest

/-- Settles O31. -/
theorem openReadTakesTheHead : Obligations.OpenReadTakesTheHead := by
  intro x w s h hw n c result he ha hx hr
  have performs {u : State} (hu : openReadEffect x n s = u) : Performs (.openRead (solo x) w) x 0 s u :=
    performs_conduitCommand h rfl (beq_iff_eq.mp hw) (refusedCode_consumer he ha hx (.inl ⟨rfl, hr⟩)) hu
  refine ⟨fun hv => performs ?_, fun i rest hv => performs ?_⟩
  · have hv' : (s.conduit n).visible = [] := hv
    simp only [openReadEffect, hv']
    rfl
  · have hv' : (s.conduit n).visible = i :: rest := hv
    simp only [openReadEffect, hv', Conduit.isLatest, Bool.and_eq_true, beq_iff_eq]
    rfl

/-- A LATEST slot given back while a newer one waits becomes FREE. -/
theorem Conduit.givenBack_freed (i : BitVec 3) (h : c.mode = 1 ∧ ¬ (c.visible = [] ∧ c.ready = [])) :
    c.givenBack i = ({ c with reading := none }, false) := by
  rw [Conduit.givenBack, if_pos]
  simpa [Conduit.isLatest, imp_iff_not_or] using h

/-- Any other slot given back becomes the first of the visible list. -/
theorem Conduit.givenBack_kept (i : BitVec 3) (h : ¬ (c.mode = 1 ∧ ¬ (c.visible = [] ∧ c.ready = []))) :
    c.givenBack i = ({ c with reading := none, visible := i :: c.visible }, true) := by
  rw [Conduit.givenBack, if_neg]
  simpa [Conduit.isLatest, imp_iff_not_or] using h

/-- Settles O32. -/
theorem slotsAreGivenBack : Obligations.SlotsAreGivenBack := by
  intro x w i s h n c done freed kept newest he ha
  refine ⟨fun hw hx hf => ?abandon, fun hx hr => ⟨fun hw => ⟨fun hn => ?drained, fun hn => ?keptLatest⟩,
    fun hw => ⟨fun hn => ?freed, fun hn => ?returned⟩⟩⟩
  case abandon =>
    have hf' : (s.conduit n).filling = some i := hf
    refine performs_conduitCommand h rfl (beq_iff_eq.mp hw)
      (refusedCode_producer he ha hx (.inr ⟨.inl rfl, Option.ne_none_iff_exists'.mpr ⟨i, hf⟩⟩)) ?_
    show abandonEffect x n s = _
    simp only [abandonEffect, hf']
    rfl
  all_goals
    have hr' : (s.conduit n).reading = some i := hr
    have hopen : (s.conduit n).reading ≠ none := Option.ne_none_iff_exists'.mpr ⟨i, hr⟩
  case drained =>
    have hx' : (s.conduit n).producer = x.other := (Port.eq_or_eq_other _ x).resolve_left (Ne.symm hx)
    have hno : ¬ ((s.conduit n).isLatest && ((s.conduit n).givenBack i).2) = true := by
      rw [Bool.and_eq_true, Conduit.isLatest, beq_iff_eq]
      rintro ⟨hm, hback⟩
      rw [Conduit.givenBack_freed i ⟨hm, fun hnew => hn ⟨hm, hnew⟩⟩] at hback
      cases hback
    refine performs_conduitCommand h rfl (beq_iff_eq.mp hw) (refusedCode_consumer he ha hx (.inr ⟨.inl rfl, hopen⟩)) ?_
    show releaseEffect x n s = _
    simp only [releaseEffect, hr', if_neg hno, hx']
    rfl
  case keptLatest =>
    have hback := Conduit.givenBack_kept (c := s.conduit n) i fun hne => hne.2 hn.2
    refine performs_conduitCommand h rfl (beq_iff_eq.mp hw) (refusedCode_consumer he ha hx (.inr ⟨.inl rfl, hopen⟩)) ?_
    show releaseEffect x n s = _
    have hlatest : (s.conduit n).isLatest = true := beq_iff_eq.mpr hn.1
    have hk : s.mapConduit n (fun c => (c.givenBack i).1) = kept := State.mapConduit_congr (congrArg Prod.fst hback)
    simp only [releaseEffect, hr', hlatest, hback, Bool.and_self, if_true, hk]
    rfl
  case freed =>
    have hk : s.mapConduit n (fun c => (c.givenBack i).1) = freed :=
      State.mapConduit_congr (congrArg Prod.fst (Conduit.givenBack_freed i hn))
    refine performs_conduitCommand h rfl (beq_iff_eq.mp hw) (refusedCode_consumer he ha hx (.inr ⟨.inr rfl, hopen⟩)) ?_
    show returnEffect x n s = _
    simp only [returnEffect, hr', hk]
    rfl
  case returned =>
    have hk : s.mapConduit n (fun c => (c.givenBack i).1) = kept :=
      State.mapConduit_congr (congrArg Prod.fst (Conduit.givenBack_kept i hn))
    refine performs_conduitCommand h rfl (beq_iff_eq.mp hw) (refusedCode_consumer he ha hx (.inr ⟨.inr rfl, hopen⟩)) ?_
    show returnEffect x n s = _
    simp only [returnEffect, hr', hk]
    rfl

end Sys2Proof.Machine
end

section
/-! The parts of a core clock: what each does to its own items, and what it leaves to the others (R10). -/

namespace Sys2Proof.Machine

-- Elaborates the proofs in order, none beside the tests' kernel evaluations: each that waits there costs a thread's memory.
set_option deprecated.oldSectionVars true

variable {s t u : State} {x : Port} {k : BitVec 2} {A B : BitVec 2 → Prop}

/-! ## The units that no cadence and no conduit reaches -/

/-- Each port's view unit and liveness monitor. -/
def State.units (s : State) : Port → ViewUnit × Monitor := fun y => ((s.bank y).view, (s.bank y).monitor)

theorem view_of_units (h : t.units = s.units) (y : Port) : (t.bank y).view = (s.bank y).view :=
  congrArg Prod.fst (congrFun h y)

theorem monitor_of_units (h : t.units = s.units) (y : Port) : (t.bank y).monitor = (s.bank y).monitor :=
  congrArg Prod.snd (congrFun h y)

theorem units_of_banks (h : t.banks = s.banks) : t.units = s.units := by
  unfold State.units State.bank
  rw [h]

theorem units_mapBank {f : Bank → Bank} (h : ∀ b, (f b).view = b.view ∧ (f b).monitor = b.monitor) (s : State)
    (x : Port) : (s.mapBank x f).units = s.units := by
  funext y
  rw [State.units, State.bank_mapBank]
  split
  · rename_i e
    subst e
    exact Prod.ext (h _).1 (h _).2
  · rfl

@[simp] theorem units_latch (s : State) (x : Port) (l : BitVec 4) : (s.latch x l).units = s.units :=
  units_mapBank (f := fun b => { b with
    events := { b.events with latches := b.events.latches ||| oneHot l }
    fresh := { b.fresh with latch := b.fresh.latch ||| oneHot l } }) (fun _ => ⟨rfl, rfl⟩) s x

theorem Flushed.units (h : Flushed A s t) : t.units = s.units := by
  funext y
  show ((t.bank y).view, (t.bank y).monitor) = _
  rw [h.banks y]
  rfl

/-- A flush works on the conduits and the banks alone. -/
theorem Flushed.kept (h : Flushed A s t) : t.timebase = s.timebase ∧ t.captures = s.captures ∧ t.pins = s.pins ∧
    t.cutoff = s.cutoff := by
  rw [h.rest]
  exact ⟨rfl, rfl, rfl, rfl⟩

/-! ## The beginning of an instant (R11) -/

/-- A cadence at the beginning of an instant. -/
def Cadence.unfreshed (c : Cadence) : Cadence := { c with freshOverlap := false, freshAckOverrun := false }

/-- What an instant begins with. -/
theorem newInstant_eq (s : State) : ∃ cads : Table 2 Cadence, (∀ k, cads.get k = (s.cadence k).unfreshed) ∧
    newInstant s = { s with
      links := { a := s.links.a.advance, b := s.links.b.advance }, irq := s.drivePins.irq, cadOut := s.drivePins.cadOut
      banks := (s.mapBoth fun b => { b with fresh := Fresh.zero }).banks
      cadences := cads } :=
  ⟨_, fun k => (Table.get_foldl_map Cadence.unfreshed four nodup_four s.cadences k).trans (if_pos (mem_four k)),
    foldl_mapCadence Cadence.unfreshed four _⟩

theorem newInstant_cadence (s : State) (k : BitVec 2) : (newInstant s).cadence k = (s.cadence k).unfreshed := by
  obtain ⟨cads, hc, he⟩ := newInstant_eq s
  rw [State.cadence, he]
  exact hc k

theorem newInstant_bank (s : State) (x : Port) : (newInstant s).bank x = { s.bank x with fresh := Fresh.zero } := by
  obtain ⟨cads, -, he⟩ := newInstant_eq s
  rw [State.bank, he]
  cases x <;> rfl

theorem units_newInstant (s : State) : (newInstant s).units = s.units := by
  funext y
  rw [State.units, newInstant_bank]
  rfl

/-- A new instant changes no register of a block. -/
theorem newInstant_rest (s : State) : { newInstant s with
    banks := s.banks, cadences := s.cadences, links := s.links, irq := s.irq, cadOut := s.cadOut } = s := by
  obtain ⟨cads, -, he⟩ := newInstant_eq s
  rw [he]

theorem newInstant_timebase (s : State) : (newInstant s).timebase = s.timebase :=
  (congrArg State.timebase (newInstant_rest s) :)

theorem newInstant_cutoff (s : State) : (newInstant s).cutoff = s.cutoff := (congrArg State.cutoff (newInstant_rest s) :)

theorem newInstant_captures (s : State) : (newInstant s).captures = s.captures :=
  (congrArg State.captures (newInstant_rest s) :)

theorem newInstant_pins (s : State) : (newInstant s).pins = s.pins := (congrArg State.pins (newInstant_rest s) :)

theorem pinDemands_newInstant (s : State) : PinDemands (newInstant s) ↔ PinDemands s := by
  rw [PinDemands, newInstant_cutoff, newInstant_pins]

/-! ## The cutoff unit's instant (R152) -/

/-- CUTOFF_N sampled (R152). -/
def sampledCutoff (s : State) : State :=
  { s with cutoff := { s.cutoff with previous := s.cutoff.sample, sample := s.pins.cutoffN } }

theorem cutoffInstant_quiet (h : ¬ PinDemands s) : cutoffInstant s = sampledCutoff s := by
  have hn : ¬ detectionFalls s = true := mt (detectionFalls_iff s).mp h
  exact if_neg hn

theorem cutoffInstant_entry (h : PinDemands s) : cutoffInstant s = enterCutoff .pin (sampledCutoff s) :=
  if_pos ((detectionFalls_iff s).mpr h)

/-- What the cutoff unit's instant leaves of the timebase, the captures, the pins and the ports' units. -/
theorem cutoffInstant_keeps (s : State) : (cutoffInstant s).timebase = s.timebase ∧
    (cutoffInstant s).captures = s.captures ∧ (cutoffInstant s).pins = s.pins ∧ (cutoffInstant s).units = s.units := by
  by_cases h : PinDemands s
  · rw [cutoffInstant_entry h]
    have hf := (enterCutoff_flushed .pin (sampledCutoff s)).2
    obtain ⟨htime, hcaps, hpins, -⟩ := hf.kept
    exact ⟨htime, hcaps, hpins, hf.units.trans (units_of_banks rfl)⟩
  · rw [cutoffInstant_quiet h]
    exact ⟨rfl, rfl, rfl, rfl⟩

theorem cutoffInstant_cutoff (s : State) : (cutoffInstant s).cutoff =
    if PinDemands s then { (sampledCutoff s).cutoff with active := true, cause := .pin } else (sampledCutoff s).cutoff := by
  split
  · rename_i h
    rw [cutoffInstant_entry h]
    obtain ⟨-, -, -, hcut⟩ := (enterCutoff_flushed .pin (sampledCutoff s)).2.kept
    exact hcut
  · rename_i h
    rw [cutoffInstant_quiet h]

/-- Where the pin demands no cutoff the cadences are left alone. -/
theorem cutoffInstant_cadence (h : ¬ PinDemands s) (k : BitVec 2) : (cutoffInstant s).cadence k = s.cadence k := by
  rw [cutoffInstant_quiet h]; rfl

theorem cutoffInstant_cadence_entry (h : PinDemands s) (k : BitVec 2) : (cutoffInstant s).cadence k = (s.cadence k).halted := by
  rw [cutoffInstant_entry h]
  exact (enterCutoff_flushed .pin (sampledCutoff s)).1 k

/-! ## The cadences' turns (R147, R148) -/

/-- A cadence after its turn of a tick that sets TIME to `now`. -/
def Cadence.turned (now : Time) (c : Cadence) : Cadence :=
  if c.Live ∧ c.next = now then c.ticked else { c with pulse := c.pulse.countDown }

/-- What a turn of a cadence leaves alone: the cutoff unit, the timebase, the pins, the ports' units, and the channels of
other sources. -/
def Turns (s t : State) : Prop :=
  (t.cutoff = s.cutoff ∧ t.timebase = s.timebase ∧ t.pins = s.pins ∧ t.units = s.units) ∧
  ∀ j, (t.capture j).source = (s.capture j).source ∧ (t.capture j).sample = (s.capture j).sample ∧
    ((s.capture j).source ≠ 3 → t.capture j = s.capture j)

theorem Turns.none (s : State) : Turns s s := ⟨⟨rfl, rfl, rfl, rfl⟩, fun _ => ⟨rfl, rfl, fun _ => rfl⟩⟩

theorem Turns.trans (h : Turns s t) (g : Turns t u) : Turns s u := by
  obtain ⟨⟨hcut, htime, hpins, hunits⟩, hcap⟩ := h
  obtain ⟨⟨gcut, gtime, gpins, gunits⟩, gcap⟩ := g
  refine ⟨⟨gcut.trans hcut, gtime.trans htime, gpins.trans hpins, gunits.trans hunits⟩, fun j => ?_⟩
  obtain ⟨hsource, hsample, hkeep⟩ := hcap j
  obtain ⟨gsource, gsample, gkeep⟩ := gcap j
  exact ⟨gsource.trans hsource, gsample.trans hsample, fun h3 => (gkeep (hsource ▸ h3)).trans (hkeep h3)⟩

theorem Capture.after_source (c : Capture) (now : Time) (cause : CapCause) : (c.after now cause).source = c.source ∧
    (c.after now cause).sample = c.sample := by
  unfold Capture.after
  split <;> exact ⟨rfl, rfl⟩

theorem cadenceTurn_cadence (k j : BitVec 2) (s : State) : (cadenceTurn k s).cadence j =
    if j = k then (s.cadence j).turned s.timebase.time else s.cadence j := by
  by_cases hd : (s.cadence k).Live ∧ (s.cadence k).next = s.timebase.time
  · obtain ⟨caps, -, hf⟩ := cadenceTick_flushed k s
    rw [cadenceTurn_due hd, State.cadence, hf.cadences]
    show (s.cadences.map k Cadence.ticked).get j = _
    rw [Table.get_map]
    split
    · rename_i e
      subst e
      exact (if_pos hd).symm
    · rfl
  · rw [cadenceTurn_not_due hd, State.cadence_mapCadence]
    split
    · rename_i e
      subst e
      exact (if_neg hd).symm
    · rfl

/-- A cadence's turn. -/
theorem cadenceTurn_turns (k : BitVec 2) (s : State) : Turns s (cadenceTurn k s) := by
  by_cases hd : (s.cadence k).Live ∧ (s.cadence k).next = s.timebase.time
  · obtain ⟨caps, hcaps, hf⟩ := cadenceTick_flushed k s
    rw [cadenceTurn_due hd]
    obtain ⟨htime, hcap, hpins, hcut⟩ := hf.kept
    have hunits := (units_latch (s.latch .A (7 + k.setWidth 4)) .B (7 + k.setWidth 4)).trans (units_latch s .A _)
    refine ⟨⟨hcut, htime, hpins, hf.units.trans ((units_of_banks rfl).trans hunits)⟩, fun j => ?_⟩
    rw [State.capture, hcap]
    show (caps.get j).source = _ ∧ (caps.get j).sample = _ ∧ _
    rw [hcaps j]
    split
    · rename_i h3
      exact ⟨(Capture.after_source ..).1, (Capture.after_source ..).2, fun hne => absurd h3.1 hne⟩
    · exact ⟨rfl, rfl, fun _ => rfl⟩
  · rw [cadenceTurn_not_due hd]
    exact ⟨⟨rfl, rfl, rfl, rfl⟩, fun _ => ⟨rfl, rfl, fun _ => rfl⟩⟩

/-- The cadences' turns, in any order and number of cadences. -/
theorem turns_cadence (l : List (BitVec 2)) (hl : l.Nodup) (s : State) :
    Turns s (l.foldl (fun s k => cadenceTurn k s) s) ∧ ∀ j, (l.foldl (fun s k => cadenceTurn k s) s).cadence j =
      if j ∈ l then (s.cadence j).turned s.timebase.time else s.cadence j := by
  induction l generalizing s with
  | nil => exact ⟨.none s, fun j => by simp⟩
  | cons k l ih =>
    obtain ⟨hk, hl⟩ := List.nodup_cons.mp hl
    obtain ⟨hturns, hcads⟩ := ih hl (cadenceTurn k s)
    have hone := cadenceTurn_turns k s
    refine ⟨hone.trans hturns, fun j => ?_⟩
    rw [List.foldl_cons, hcads j, hone.1.2.1, cadenceTurn_cadence]
    by_cases e : j = k
    · subst e; simp [hk]
    · simp [e]

/-! ## The timebase (R138, R139, R142) -/

/-- The timebase after a tick. -/
def Timebase.ticked (b : Timebase) : Timebase :=
  { b with time := nextTime b, pendingLoad := none, left := b.prescale.toNat + 1 }

/-- The timebase's part of an instant that the cutoff unit has had: the tick with the cadences' turns, or the divider. -/
def timeInstant (s : State) : State := if tickDue s then tickTime s else countDivider s

theorem advanceTime_eq (s : State) : advanceTime s = { s with timebase := s.timebase.ticked } := rfl

theorem timeInstant_due (h : s.timebase.left ≤ 1) : timeInstant s =
    four.foldl (fun s k => cadenceTurn k s) { s with timebase := s.timebase.ticked } := by
  rw [timeInstant, if_pos (show tickDue s = true from decide_eq_true h), tickTime, advanceTime_eq]

theorem timeInstant_not_due (h : ¬ s.timebase.left ≤ 1) : timeInstant s =
    { s with timebase := { s.timebase with left := s.timebase.left - 1 } } :=
  if_neg (by rw [tickDue, decide_eq_true_iff]; exact h)

theorem timeInstant_turns (s : State) : Turns { s with timebase :=
    if s.timebase.left ≤ 1 then s.timebase.ticked else { s.timebase with left := s.timebase.left - 1 } } (timeInstant s) := by
  split
  · rename_i h
    rw [timeInstant_due h]
    exact (turns_cadence four nodup_four { s with timebase := s.timebase.ticked }).1
  · rename_i h
    rw [timeInstant_not_due h]
    exact .none _

theorem timeInstant_timebase (s : State) : (timeInstant s).timebase =
    if s.timebase.left ≤ 1 then s.timebase.ticked else { s.timebase with left := s.timebase.left - 1 } :=
  (timeInstant_turns s).1.2.1

theorem timeInstant_cadence (s : State) (k : BitVec 2) : (timeInstant s).cadence k =
    if s.timebase.left ≤ 1 then (s.cadence k).turned (nextTime s.timebase) else s.cadence k := by
  split
  · rename_i h
    rw [timeInstant_due h]
    exact ((turns_cadence four nodup_four { s with timebase := s.timebase.ticked }).2 k).trans (if_pos (mem_four k))
  · rename_i h
    rw [timeInstant_not_due h]
    rfl

/-! ## The samples of the capture pins, and the end of an instant (R44, R156, R163) -/

theorem sampleCaptures_keeps (s : State) : SameTiming s (sampleCaptures s) ∧ (sampleCaptures s).units = s.units := by
  have he := (sampleCaptures_eq s).2
  generalize (sampleCaptures s).captures = caps at he
  rw [he]
  exact ⟨⟨rfl, rfl, rfl⟩, units_of_banks rfl⟩

/-- A counting monitor's turn of a tick, as far as the warning. -/
def tallied (x : Port) (s : State) : State :=
  let t := s.mapBank x fun b => { b with monitor := (s.bank x).monitor.counted }
  if (s.bank x).monitor.WarnsNext then t.latch x 13 else t

theorem sameShared_tallied (x : Port) (s : State) : SameShared s (tallied x s) := by
  simp only [tallied]
  split <;> rfl

theorem tallied_monitor (x : Port) (s : State) : ((tallied x s).bank x).monitor = (s.bank x).monitor.counted := by
  simp only [tallied]
  split
  · rw [monitor_of_units (units_latch ..), State.bank_mapBank_same]
  · rw [State.bank_mapBank_same]

theorem countLiveness_idle (h : ¬ (s.bank x).monitor.Counting) : countLiveness x s = s :=
  if_neg (mt (Monitor.counts_iff _).mp h)

theorem Monitor.advance_eq (m : Monitor) (h : ¬ m.WarnsNext) : m.advance = m.counted := by
  simp [Monitor.advance, Monitor.counted, h]

theorem Monitor.counted_of_warns {m : Monitor} (h : m.WarnsNext) : m.counted = { m.advance with warned := true } := by
  unfold Monitor.counted
  rw [decide_eq_true h, Bool.or_true]
  rfl

theorem Monitor.warningDue_iff (m : Monitor) (h : m.phase = 255) : m.advance.warningDue = true ↔ m.WarnsNext := by
  simp only [Monitor.warningDue, Monitor.WarnsNext, Bool.and_eq_true, Monitor.counts_iff, beq_iff_eq, Bool.not_eq_true',
    Monitor.advance, if_pos h, Monitor.Counting]
  tauto

theorem Monitor.expiryDue_counted (m : Monitor) (h : m.phase = 255) : m.counted.expiryDue = true ↔ m.ExpiresNext := by
  simp only [Monitor.expiryDue, Monitor.ExpiresNext, Bool.and_eq_true, Monitor.counts_iff, beq_iff_eq, Monitor.counted,
    if_pos h, Monitor.Counting]
  tauto

theorem warnIfDue_eq (h : (s.bank x).monitor.phase = 255) : warnIfDue x (s.mapMonitor x Monitor.advance) = tallied x s := by
  have hm : ((s.mapMonitor x Monitor.advance).bank x).monitor = (s.bank x).monitor.advance := by
    rw [State.mapMonitor, State.bank_mapBank_same]
  simp only [warnIfDue, hm, Monitor.warningDue_iff _ h, tallied]
  split
  · rename_i hw
    rw [warn, State.mapMonitor, State.mapMonitor, State.mapBank_mapBank]
    refine congrArg (fun t : State => t.latch x 13) (State.mapBank_congr ?_)
    rw [Monitor.counted_of_warns hw]
  · rename_i hw
    exact State.mapBank_congr (by rw [Monitor.advance_eq _ hw])

theorem countLiveness_counting (h : (s.bank x).monitor.Counting) : countLiveness x s =
    if (s.bank x).monitor.ExpiresNext then expire x (tallied x s) else tallied x s := by
  simp only [countLiveness, (Monitor.counts_iff _).mpr h, if_true]
  by_cases hp : (s.bank x).monitor.phase = 255
  · rw [if_pos hp, warnIfDue_eq hp]
    simp only [expireIfDue, tallied_monitor, Monitor.expiryDue_counted _ hp]
  · have hw : ¬ (s.bank x).monitor.WarnsNext := fun hw => hp hw.2.1
    have he : ¬ (s.bank x).monitor.ExpiresNext := fun he => hp he.2.1
    simp only [if_neg hp, if_neg he, tallied, if_neg hw]
    exact State.mapBank_congr (by rw [Monitor.advance_eq _ hw])

theorem countLiveness_shared (x : Port) (s : State) : SameShared s (countLiveness x s) := by
  by_cases h : (s.bank x).monitor.Counting
  · rw [countLiveness_counting h]
    split
    · exact (sameShared_tallied x s).trans (sameShared_expire x _)
    · exact sameShared_tallied x s
  · rw [countLiveness_idle h]; rfl

/-- The liveness part of an instant. -/
def liveInstant (due : Bool) (s : State) : State := if due then tickLiveness s else s

theorem runEvents_eq (s : State) : runEvents s =
    advanceSweep .B (advanceSweep .A (liveInstant (tickDue (cutoffInstant s))
      (sampleCaptures (timeInstant (cutoffInstant s))))) := rfl

theorem liveInstant_shared (due : Bool) (s : State) : SameShared s (liveInstant due s) := by
  unfold liveInstant
  split
  · exact (countLiveness_shared .A s).trans (countLiveness_shared .B _)
  · rfl

theorem advanceSweep_shared (x : Port) (s : State) : SameShared s (advanceSweep x s) := rfl

/-- After the samples nothing of an instant reaches the timebase, the cadences, the cutoff unit or the captures. -/
theorem runEvents_shared (s : State) : SameShared (sampleCaptures (timeInstant (cutoffInstant s))) (runEvents s) := by
  rw [runEvents_eq]
  exact ((liveInstant_shared _ _).trans (advanceSweep_shared .A _)).trans (advanceSweep_shared .B _)

theorem SameShared.kept (h : SameShared s t) : SameTiming s t ∧ t.captures = s.captures := by
  have e : t = { s with banks := t.banks, conduits := t.conduits, tokens := t.tokens } := by
    rw [← h]
  rw [e]
  exact ⟨⟨rfl, rfl, rfl⟩, rfl⟩

/-! ## The loss of a port, bank by bank (R166) -/

/-- The bank of a lost port, but for the COMMIT notices of its revocation. -/
def Bank.lost (b : Bank) : Bank :=
  let n := b.records.cntLoss
  { b with
    monitor := { b.monitor with presence := .absent, lastCause := .expired }
    records := { b.records with cntLoss := if n = 255 then 255 else n + 1 }
    events := { b.events with latches := if n = 254 then b.events.latches ||| 0x4000 else b.events.latches }
    fresh := { b.fresh with
      loss := if n = 255 then b.fresh.loss else b.fresh.loss + 1
      latch := if n = 254 then b.fresh.latch ||| 0x4000 else b.fresh.latch } }

/-- A full counter keeps its value (R64). -/
theorem Bank.lost_of_full {b : Bank} (h : b.records.cntLoss = 255) :
    b.lost = { b with monitor := { b.monitor with presence := .absent, lastCause := .expired } } := by
  obtain ⟨view, ⟨deny, fault, cntDeny, cntFault, cntRefuse, cntLoss⟩, _⟩ := b
  subst h
  rfl

theorem countLoss_eq (s : State) (x : Port) :
    (s.mapMonitor x fun m => { m with presence := .absent, lastCause := .expired }).countEvent x .loss =
      s.mapBank x Bank.lost := by
  simp only [State.countEvent, State.mapMonitor, State.bank_mapBank_same, Records.count]
  split
  · rename_i h
    exact State.mapBank_congr (Bank.lost_of_full h).symm
  · rename_i h
    rw [State.mapBank_mapBank]
    split
    · rename_i h'
      rw [State.latch, State.mapBank_mapBank]
      refine State.mapBank_congr ?_
      simp only [Bank.lost, h', if_true]
      rfl
    · rename_i h'
      refine State.mapBank_congr ?_
      simp only [Bank.lost, h, h', if_false]
      rfl

theorem lost_eq (x : Port) (s : State) : lost x s = (s.mapBank x Bank.lost).latch x.other 12 := by
  rw [lost, countLoss_eq]; rfl

theorem lost_bank_self (x : Port) (s : State) : (lost x s).bank x = (s.bank x).lost := by
  rw [lost_eq, State.latch, State.bank_mapBank_of_other, State.bank_mapBank_same]

theorem lost_bank_other (x : Port) (s : State) : (lost x s).bank x.other =
    { s.bank x.other with
      events := { (s.bank x.other).events with latches := (s.bank x.other).events.latches ||| 0x1000 }
      fresh := { (s.bank x.other).fresh with latch := (s.bank x.other).fresh.latch ||| 0x1000 } } := by
  rw [lost_eq, State.latch, State.bank_mapBank_same, State.bank_mapBank_other]
  rfl

/-- The lost port's bank: the COMMIT notices come from its revocation. -/
theorem expire_bank_self (x : Port) (s : State) : (expire x s).bank x =
    { (s.bank x).lost with
      conduits := { (s.bank x).conduits with commitNotice := ((expire x s).bank x).conduits.commitNotice }
      fresh := { (s.bank x).lost.fresh with commit := ((expire x s).bank x).fresh.commit } } := by
  have he : (expire x s).bank x = (revoke x true (lost x s)).bank x := by
    rw [expire_eq, (releaseTokensOf_withdrawn x _).own]
  have h := (revoke_visited x true (lost x s)).banks x
  rw [← he, lost_bank_self] at h
  exact h

/-- The partner's bank: the TOKEN notices come from the hand-overs. -/
theorem expire_bank_other (x : Port) (s : State) : (expire x s).bank x.other =
    { s.bank x.other with
      tokens := { (s.bank x.other).tokens with notice := ((expire x s).bank x.other).tokens.notice }
      events := { (s.bank x.other).events with latches := (s.bank x.other).events.latches ||| 0x1000 }
      fresh := { (s.bank x.other).fresh with
        latch := (s.bank x.other).fresh.latch ||| 0x1000
        token := ((expire x s).bank x.other).fresh.token } } := by
  have h := (releaseTokensOf_withdrawn x (revoke x true (lost x s))).partner
  rw [← expire_eq, revoke_bank_other, lost_bank_other] at h
  exact h

/-- A monitor after one tick (R163, R166). -/
def Monitor.lived (m : Monitor) : Monitor :=
  if m.Counting then
    if m.ExpiresNext then { m.counted with presence := .absent, lastCause := .expired } else m.counted
  else m

theorem expire_bank_units (x y : Port) (s : State) : ((expire x s).bank y).view = (s.bank y).view ∧
    ((expire x s).bank y).monitor =
      if y = x then { (s.bank y).monitor with presence := .absent, lastCause := .expired } else (s.bank y).monitor := by
  rcases Port.eq_or_eq_other y x with rfl | rfl
  · rw [if_pos rfl, expire_bank_self]
    exact ⟨rfl, rfl⟩
  · rw [if_neg (Port.other_ne x), expire_bank_other]
    exact ⟨rfl, rfl⟩

theorem tallied_bank_units (x y : Port) (s : State) : ((tallied x s).bank y).view = (s.bank y).view ∧
    ((tallied x s).bank y).monitor = if y = x then (s.bank y).monitor.counted else (s.bank y).monitor := by
  have hunits : (tallied x s).units = (s.mapBank x fun b => { b with monitor := (s.bank x).monitor.counted }).units := by
    simp only [tallied]
    split
    · exact units_latch ..
    · rfl
  rw [view_of_units hunits, monitor_of_units hunits, State.bank_mapBank]
  split
  · rename_i e; subst e; exact ⟨rfl, rfl⟩
  · exact ⟨rfl, rfl⟩

/-- A monitor's turn of a tick moves that monitor alone. -/
theorem countLiveness_units (x y : Port) (s : State) : ((countLiveness x s).bank y).view = (s.bank y).view ∧
    ((countLiveness x s).bank y).monitor = if y = x then (s.bank y).monitor.lived else (s.bank y).monitor := by
  by_cases hc : (s.bank x).monitor.Counting
  · rw [countLiveness_counting hc]
    obtain ⟨hview, hmon⟩ := tallied_bank_units x y s
    by_cases he : (s.bank x).monitor.ExpiresNext
    · obtain ⟨eview, emon⟩ := expire_bank_units x y (tallied x s)
      rw [if_pos he, eview, emon, hview, hmon]
      refine ⟨rfl, ?_⟩
      split
      · rename_i e
        subst e
        rw [Monitor.lived, if_pos hc, if_pos he]
      · rfl
    · rw [if_neg he, hview, hmon]
      refine ⟨rfl, ?_⟩
      split
      · rename_i e
        subst e
        rw [Monitor.lived, if_pos hc, if_neg he]
      · rfl
  · rw [countLiveness_idle hc]
    refine ⟨rfl, ?_⟩
    split
    · rename_i e
      subst e
      rw [Monitor.lived, if_neg hc]
    · rfl

theorem tickLiveness_units (y : Port) (s : State) : ((tickLiveness s).bank y).view = (s.bank y).view ∧
    ((tickLiveness s).bank y).monitor = (s.bank y).monitor.lived := by
  obtain ⟨aview, amon⟩ := countLiveness_units .A y s
  obtain ⟨bview, bmon⟩ := countLiveness_units .B y (countLiveness .A s)
  refine ⟨bview.trans aview, ?_⟩
  rw [tickLiveness, bmon, amon]
  cases y <;> rfl

theorem advanceSweep_units (x y : Port) (s : State) :
    ((advanceSweep x s).bank y).view = (if y = x then (s.bank y).view.sweepOn else (s.bank y).view) ∧
    ((advanceSweep x s).bank y).monitor = (s.bank y).monitor := by
  rw [advanceSweep, State.mapView, State.bank_mapBank]
  split
  · rename_i e; subst e; exact ⟨rfl, rfl⟩
  · exact ⟨rfl, rfl⟩

/-! ## A whole clock of operation -/

/-- The events of an instant, unit by unit: the sweeps go on, and at a tick the monitors count. -/
theorem runEvents_units (y : Port) (s : State) : ((runEvents s).bank y).view = (s.bank y).view.sweepOn ∧
    ((runEvents s).bank y).monitor = if s.timebase.left ≤ 1 then (s.bank y).monitor.lived else (s.bank y).monitor := by
  obtain ⟨ctime, -, -, cunits⟩ := cutoffInstant_keeps s
  have hunits : (sampleCaptures (timeInstant (cutoffInstant s))).units = s.units := by
    rw [(sampleCaptures_keeps _).2, (timeInstant_turns _).1.2.2.2]
    exact (units_of_banks rfl).trans cunits
  generalize hp : sampleCaptures (timeInstant (cutoffInstant s)) = p at hunits
  have hdue : tickDue (cutoffInstant s) = decide (s.timebase.left ≤ 1) := by rw [tickDue, ctime]
  rw [runEvents_eq, hp, hdue]
  obtain ⟨bview, bmon⟩ := advanceSweep_units .B y (advanceSweep .A (liveInstant (decide (s.timebase.left ≤ 1)) p))
  obtain ⟨aview, amon⟩ := advanceSweep_units .A y (liveInstant (decide (s.timebase.left ≤ 1)) p)
  obtain ⟨lview, lmon⟩ : ((liveInstant (decide (s.timebase.left ≤ 1)) p).bank y).view = (p.bank y).view ∧
      ((liveInstant (decide (s.timebase.left ≤ 1)) p).bank y).monitor =
        if s.timebase.left ≤ 1 then (p.bank y).monitor.lived else (p.bank y).monitor := by
    by_cases hd : s.timebase.left ≤ 1
    · simp only [liveInstant, decide_eq_true hd, if_true, if_pos hd]
      exact tickLiveness_units y p
    · simp only [liveInstant, decide_eq_false hd, if_neg hd]
      exact ⟨rfl, rfl⟩
  rw [bview, bmon, aview, amon, lview, lmon, view_of_units hunits, monitor_of_units hunits]
  refine ⟨?_, rfl⟩
  cases y <;> rfl

/-- The view units and monitors after one core clock of operation. -/
theorem coreClock_units (h : s.phase = .run) (y : Port) : ((coreClock s).bank y).view = (s.bank y).view.sweepOn ∧
    ((coreClock s).bank y).monitor = if s.timebase.left ≤ 1 then (s.bank y).monitor.lived else (s.bank y).monitor := by
  have hu := units_newInstant s
  obtain ⟨hview, hmon⟩ := runEvents_units y (newInstant s)
  rw [coreClock_run h, hview, hmon, newInstant_timebase, view_of_units hu, monitor_of_units hu]
  exact ⟨rfl, rfl⟩

theorem coreClock_timebase (h : s.phase = .run) : (coreClock s).timebase =
    if s.timebase.left ≤ 1 then s.timebase.ticked else { s.timebase with left := s.timebase.left - 1 } := by
  obtain ⟨ctime, -⟩ := cutoffInstant_keeps (newInstant s)
  rw [coreClock_run h, (runEvents_shared _).kept.1.2.2, (sampleCaptures_keeps _).1.2.2, timeInstant_timebase, ctime,
    newInstant_timebase]

theorem coreClock_cutoff (h : s.phase = .run) : (coreClock s).cutoff = (cutoffInstant s).cutoff := by
  rw [coreClock_run h, (runEvents_shared _).kept.1.2.1, (sampleCaptures_keeps _).1.2.1, (timeInstant_turns _).1.1]
  show (cutoffInstant (newInstant s)).cutoff = _
  simp only [cutoffInstant_cutoff, pinDemands_newInstant, sampledCutoff, newInstant_cutoff, newInstant_pins]

/-- A cadence after one core clock of operation. -/
theorem coreClock_cadence (h : s.phase = .run) (k : BitVec 2) : (coreClock s).cadence k =
    let c := if PinDemands s then (s.cadence k).unfreshed.halted else (s.cadence k).unfreshed
    if s.timebase.left ≤ 1 then c.turned (nextTime s.timebase) else c := by
  have hc : (cutoffInstant (newInstant s)).cadence k =
      if PinDemands s then (s.cadence k).unfreshed.halted else (s.cadence k).unfreshed := by
    by_cases hp : PinDemands s
    · rw [if_pos hp, cutoffInstant_cadence_entry ((pinDemands_newInstant s).mpr hp), newInstant_cadence]
    · rw [if_neg hp, cutoffInstant_cadence (mt (pinDemands_newInstant s).mp hp), newInstant_cadence]
  obtain ⟨ctime, -⟩ := cutoffInstant_keeps (newInstant s)
  rw [coreClock_run h, State.cadence, (runEvents_shared _).kept.1.1, (sampleCaptures_keeps _).1.1, ← State.cadence,
    timeInstant_cadence, hc, ctime, newInstant_timebase]

/-- Every pin is sampled at the clock, after any tick, and a channel of another source than the cadences is moved by that
sample alone (R156, R157). -/
theorem coreClock_capture (h : s.phase = .run) (j : BitVec 2) :
    ((coreClock s).capture j).sample = some (s.pins.capIn.getLsbD j.toNat) ∧
    ((s.capture j).source ≠ 3 → (coreClock s).capture j =
      (s.capture j).sampled (s.pins.capIn.getLsbD j.toNat) (coreClock s).timebase.time) := by
  obtain ⟨ctime, ccaps, cpins, -⟩ := cutoffInstant_keeps (newInstant s)
  obtain ⟨⟨-, ptime, ppins, -⟩, pcap⟩ := timeInstant_turns (cutoffInstant (newInstant s))
  have hpins : (timeInstant (cutoffInstant (newInstant s))).pins = s.pins := ppins.trans (cpins.trans (newInstant_pins s))
  have hkeep (h3 : (s.capture j).source ≠ 3) : (timeInstant (cutoffInstant (newInstant s))).capture j = s.capture j := by
    have e : (cutoffInstant (newInstant s)).capture j = s.capture j := by
      rw [State.capture, ccaps, newInstant_captures]; rfl
    obtain ⟨-, -, keep⟩ := pcap j
    exact (keep (by rw [← e] at h3; exact h3)).trans e
  have htime : (coreClock s).timebase = (timeInstant (cutoffInstant (newInstant s))).timebase := by
    rw [coreClock_run h, (runEvents_shared _).kept.1.2.2, (sampleCaptures_keeps _).1.2.2]
  have hcap : (coreClock s).capture j = (sampleCaptures (timeInstant (cutoffInstant (newInstant s)))).capture j := by
    rw [coreClock_run h, State.capture, (runEvents_shared _).kept.2]; rfl
  rw [hcap, (sampleCaptures_eq _).1 j, hpins, htime]
  exact ⟨rfl, fun h3 => by rw [hkeep h3]⟩

end Sys2Proof.Machine
end

section
/-! What the core clocks bring about: sweeps, ticks, cadences, cutoff, captures and pins (R10). -/

namespace Sys2Proof.Machine

-- Elaborates the proofs in order, none beside the tests' kernel evaluations: each that waits there costs a thread's memory.
set_option deprecated.oldSectionVars true

variable {s t u : State} {x : Port} {k : BitVec 2} {w : Word}

/-! ## The clocks of an interval (R139) -/

theorem phase_clocks_run (h : s.phase = .run) (n : Nat) : (clocks n s).phase = .run :=
  clocks_keep (P := fun s => s.phase = .run) (fun _ hr => phase_coreClock_run hr) n h

/-- Between ticks the divider alone counts. -/
theorem clocks_timebase (h : s.phase = .run) {n : Nat} (hn : n < s.timebase.left) :
    (clocks n s).timebase = { s.timebase with left := s.timebase.left - n } := by
  induction n with
  | zero => rfl
  | succ n ih =>
    have hb := ih (Nat.lt_of_succ_lt hn)
    have hl : ¬ (clocks n s).timebase.left ≤ 1 := by rw [hb]; show ¬ s.timebase.left - n ≤ 1; omega
    rw [clocks_succ_last, coreClock_timebase (phase_clocks_run h n), if_neg hl, hb]
    simp only [Nat.sub_sub]

/-- The instant before a tick. -/
theorem beforeTick_timebase (h : s.phase = .run) :
    ∃ n ≤ 1, (clocks (s.timebase.left - 1) s).timebase = { s.timebase with left := n } := by
  by_cases h0 : s.timebase.left = 0
  · exact ⟨s.timebase.left, by omega, by rw [show s.timebase.left - 1 = 0 by omega]; rfl⟩
  · exact ⟨1, Nat.le_refl 1, by rw [clocks_timebase h (by omega), show s.timebase.left - (s.timebase.left - 1) = 1 by omega]⟩

theorem beforeTick_due (h : s.phase = .run) : (clocks (s.timebase.left - 1) s).timebase.left ≤ 1 := by
  obtain ⟨n, hn, hb⟩ := beforeTick_timebase h
  rw [hb]; exact hn

theorem beforeTick_ticked (h : s.phase = .run) : (clocks (s.timebase.left - 1) s).timebase.ticked = s.timebase.ticked := by
  obtain ⟨n, hn, hb⟩ := beforeTick_timebase h
  rw [hb]; rfl

theorem clocks_to_tick (s : State) : coreClock (clocks (s.timebase.left - 1) s) = clocks (max 1 s.timebase.left) s := by
  rw [← clocks_succ_last, show s.timebase.left - 1 + 1 = max 1 s.timebase.left by omega]

theorem eventAtTick_falls {falls : State → Bool} (h : s.phase = .run)
    (hf : falls (clocks (s.timebase.left - 1) s) = true) :
    eventAtTick falls s = coreClock (clocks (s.timebase.left - 1) s) := by
  rw [eventAtTick, beforeTick, h, hf]; rfl

theorem eventAtTick_quiet {falls : State → Bool} (hf : ¬ falls (clocks (s.timebase.left - 1) s) = true) :
    eventAtTick falls s = s := by
  rw [eventAtTick, beforeTick, Bool.eq_false_iff.mpr hf, Bool.and_false]; rfl

theorem eventAtClock_falls {falls : State → Bool} (h : s.phase = .run) (hf : falls s = true) :
    eventAtClock falls s = coreClock s := by
  rw [eventAtClock, h, hf]; rfl

theorem eventAtClock_quiet {falls : State → Bool} (hf : ¬ falls s = true) : eventAtClock falls s = s := by
  rw [eventAtClock, Bool.eq_false_iff.mpr hf, Bool.and_false]; rfl

/-! ## Sweeps (R44) -/

theorem ViewUnit.sweepOn_eq (v : ViewUnit) : v.sweepOn = match v.sweep with
    | none => v
    | some i => { v with cache := v.cache.set i none, sweep := if i = 63 then none else some (i + 1) } := rfl

/-- After `n` clocks of a sweep that has just begun, the first `n` entries are invalid and the `n`th is the next. -/
theorem clocks_sweep (h : s.phase = .run) (h0 : (s.bank x).view.sweep = some 0) {n : Nat} (hn : n ≤ 64) :
    ((clocks n s).bank x).view.sweep = (if n < 64 then some (BitVec.ofNat 6 n) else none) ∧
    ∀ i : BitVec 6, ((clocks n s).bank x).view.cache.get i =
      if i.toNat < n then none else (s.bank x).view.cache.get i := by
  induction n with
  | zero => exact ⟨h0, fun i => (if_neg (Nat.not_lt_zero _)).symm⟩
  | succ n ih =>
    obtain ⟨hsweep, hcache⟩ := ih (Nat.le_of_succ_le hn)
    rw [if_pos (by omega)] at hsweep
    have hnext : (BitVec.ofNat 6 n = 63) ↔ ¬ n + 1 < 64 := by
      rw [← BitVec.toNat_inj, BitVec.toNat_ofNat, Nat.mod_eq_of_lt (by omega)]
      show n = 63 ↔ _
      omega
    rw [clocks_succ_last, (coreClock_units (phase_clocks_run h n) x).1, ViewUnit.sweepOn_eq, hsweep]
    refine ⟨?_, fun i => ?_⟩
    · show (if BitVec.ofNat 6 n = 63 then none else some (BitVec.ofNat 6 n + 1)) = _
      by_cases hl : n + 1 < 64
      · rw [if_neg (by rw [hnext]; exact not_not_intro hl), if_pos hl, BitVec.ofNat_add]
        rfl
      · rw [if_pos (hnext.mpr hl), if_neg hl]
    · show (((clocks n s).bank x).view.cache.set (BitVec.ofNat 6 n) none).get i = _
      rw [Table.get_set, hcache i]
      have hi : i = BitVec.ofNat 6 n ↔ i.toNat = n := by
        rw [← BitVec.toNat_inj, BitVec.toNat_ofNat, Nat.mod_eq_of_lt (by omega)]
      simp only [hi]
      by_cases e : i.toNat = n
      · rw [if_pos e, if_pos (by omega)]
      · rw [if_neg e]
        by_cases hl : i.toNat < n
        · rw [if_pos hl, if_pos (by omega)]
        · rw [if_neg hl, if_neg (by omega)]

/-- Settles O25. -/
theorem sweepInvalidatesInOrder : Obligations.SweepInvalidatesInOrder := by
  intro x s v swept
  have hswept : v.sweepOn = swept := ViewUnit.sweepOn_eq v
  refine ⟨?_, fun h => ⟨?_, fun hs => ?_, fun hs => ?_, fun hs => ?_, fun hs => ?_, fun h0 n hn => clocks_sweep h h0 hn⟩⟩
  · exact State.mapBank_congr (congrArg (fun w => ({ s.bank x with view := w } : Bank)) hswept)
  · rw [(coreClock_units h x).1]; exact hswept
  · exact congrArg Host.Outcome.next (eventAtClock_falls h (Option.isSome_iff_ne_none.mpr hs))
  · refine congrArg Host.Outcome.next (eventAtClock_quiet ?_)
    rw [sweepRuns, Option.isSome_iff_ne_none]
    exact not_not_intro hs
  · exact congrArg Host.Outcome.next (eventAtClock_falls h (beq_iff_eq.mpr hs))
  · exact congrArg Host.Outcome.next (eventAtClock_quiet (mt beq_iff_eq.mp hs))

/-! ## The timebase (R10, R138, R139, R142, R163) -/

/-- Settles O40. -/
theorem ticksAdvanceTheTimebase : Obligations.TicksAdvanceTheTimebase := by
  intro s h b after counted due t begun entered ticked sampled live
  have houter := outer_coreClock_run h
  obtain ⟨ctime, -⟩ := cutoffInstant_keeps begun
  have htime : entered.timebase = b := ctime.trans (newInstant_timebase s)
  have hticked : timeInstant entered = ticked := by
    by_cases hd : due
    · rw [timeInstant_due (htime ▸ hd), htime]
      simp only [ticked, if_pos hd, four, List.foldl_cons, List.foldl_nil]
      rfl
    · rw [timeInstant_not_due (htime ▸ hd), htime]
      simp only [ticked, if_neg hd]
      rfl
  have hlast : (clocks (max 1 b.left) s).timebase = after := by
    rw [← clocks_to_tick, coreClock_timebase (phase_clocks_run h _), if_pos (beforeTick_due h), beforeTick_ticked h]
    rfl
  refine ⟨?clock, ?timebase, ?store, ?phase, ?lock, ?turn, ?pins, newInstant_bank s, newInstant_cadence s,
    newInstant_rest s, fun x => ⟨fun hq => ?quiet, fun hd hc he => ?counts, fun hd he => ?expires⟩,
    fun n hn => clocks_timebase h hn, ?tick, hlast, ?load⟩
  case clock =>
    show coreClock s = _
    rw [coreClock_run h, runEvents_eq, hticked, tickDue, htime]
    by_cases hd : due
    · simp only [live, if_pos hd, liveInstant, decide_eq_true (show b.left ≤ 1 from hd), if_true]
      rfl
    · simp only [live, if_neg hd, liveInstant, decide_eq_false (show ¬ b.left ≤ 1 from hd)]
      rfl
  case timebase => exact coreClock_timebase h
  case store => exact (store_of_outer houter :)
  case phase => exact (phase_of_outer houter :)
  case lock => exact (configLock_of_outer houter :)
  case turn => exact (turn_of_outer houter :)
  case pins => exact (pins_of_outer houter :)
  case quiet =>
    show ((coreClock s).bank x).monitor = _
    rw [(coreClock_units h x).2]
    split
    · rename_i hd
      exact if_neg (hq.resolve_left (not_not_intro hd))
    · rfl
  case counts =>
    show ((coreClock s).bank x).monitor = _
    rw [(coreClock_units h x).2, if_pos hd, Monitor.lived, if_pos hc, if_neg he]
  case expires =>
    show ((coreClock s).bank x).monitor = _
    rw [(coreClock_units h x).2, if_pos hd, Monitor.lived, if_pos he.1, if_pos he]
  case tick =>
    show Host.Outcome.next (eventAtTick (fun _ => true) s) = _
    rw [eventAtTick_falls h rfl, clocks_to_tick]
  case load =>
    show Host.Outcome.next (eventAtTick loadWaits s) = _
    obtain ⟨n, -, hb⟩ := beforeTick_timebase h
    have hwaits : loadWaits (clocks (s.timebase.left - 1) s) = s.timebase.pendingLoad.isSome := by rw [loadWaits, hb]
    split
    · rename_i hno
      rw [eventAtTick_quiet (by rw [hwaits, show s.timebase.pendingLoad = none from hno]; exact Bool.false_ne_true)]
    · rename_i hsome
      rw [eventAtTick_falls h (hwaits.trans (Option.isSome_iff_ne_none.mpr hsome)), clocks_to_tick]

/-! ## Lines and pins (R122, R131, R150) -/

theorem latchedLine (s : State) (x : Port) {l : Nat} (hl : l ∈ [7, 8, 9, 10, 12, 13, 14]) :
    (pendingLines s x).getLsbD l = (s.bank x).events.latches.getLsbD l := by
  simp only [List.mem_cons, List.not_mem_nil, or_false] at hl
  rcases hl with rfl | rfl | rfl | rfl | rfl | rfl | rfl <;> simp [pendingLines, levelLines, latchedLines]

theorem captureLine_iff (s : State) (x : Port) :
    captureLine s x = true ↔ ∃ k, (s.capture k).unread = true ∧ (s.capture k).owner = x := by
  simp only [captureLine, List.any_eq_true, mem_four, true_and, Bool.and_eq_true, beq_iff_eq]

theorem cadOutLevels_getLsbD (s : State) (k : BitVec 2) : (cadOutLevels s).getLsbD k.toNat = cadOutLevel s k := by
  rcases cases_four k with rfl | rfl | rfl | rfl <;> simp [cadOutLevels, four]

theorem irqLevel_iff (s : State) (x : Port) : irqLevel s x = true ↔ ∃ n, 1 ≤ n ∧ n ≤ 4 ∧ TierEligible s x n := by
  rw [irqLevel, List.any_eq_true]
  constructor
  · rintro ⟨n, hn, he⟩
    have hle : 1 ≤ n ∧ n ≤ 4 := by
      simp only [List.mem_cons, List.not_mem_nil, or_false] at hn
      omega
    exact ⟨n, hle.1, hle.2, (eligible_iff hle.2).mp he⟩
  · rintro ⟨n, h1, h4, he⟩
    refine ⟨n, ?_, (eligible_iff h4).mpr he⟩
    simp only [List.mem_cons, List.not_mem_nil, or_false]
    omega

/-- Settles O38. -/
theorem linesAndPinsFollowTheState : Obligations.LinesAndPinsFollowTheState := by
  intro x s b line
  have level {l : Nat} {v : Bool} (h : (levelLines s x).getLsbD l = v) (hl : latchedLines.getLsbD l = false) : line l = v := by
    simp only [line, pendingLines, BitVec.getLsbD_or, BitVec.getLsbD_and, hl, Bool.and_false, Bool.false_or, h]
  refine ⟨?deny, ?fault, ?commit, ?drain, ?reset, ?token, ?bell, ?capture, ?cutoff, fun l hl => latchedLine s x hl,
    fun h => ⟨?irq, fun k => ?cadOut⟩⟩
  case deny => rw [level (v := b.records.deny.isSome) (by simp [levelLines, b]) rfl, Option.isSome_iff_ne_none]
  case fault => rw [level (v := b.records.fault.isSome) (by simp [levelLines, b]) rfl, Option.isSome_iff_ne_none]
  case commit => rw [level (v := b.conduits.commitNotice != 0) (by simp [levelLines, b]) rfl, bne_iff_ne]
  case drain => rw [level (v := b.conduits.drainNotice != 0) (by simp [levelLines, b]) rfl, bne_iff_ne]
  case reset => rw [level (v := b.conduits.resetNotice != 0) (by simp [levelLines, b]) rfl, bne_iff_ne]
  case token => rw [level (v := b.tokens.notice != 0) (by simp [levelLines, b]) rfl, bne_iff_ne]
  case bell => rw [level (v := b.bells.incoming &&& b.bells.mask != 0) (by simp [levelLines, b]) rfl, bne_iff_ne]
  case capture => rw [level (v := captureLine s x) (by simp [levelLines]) rfl, captureLine_iff]
  case cutoff => rw [level (v := s.cutoff.active) (by simp [levelLines]) rfl]
  case irq =>
    have hpins : (coreClock s).irq = s.drivePins.irq := (irq_of_outer (outer_coreClock_run h) :)
    have hlevel : s.drivePins.irq.get x = irqLevel s x := by cases x <;> rfl
    rw [hpins, hlevel, irqLevel_iff]
  case cadOut =>
    have hpins : (coreClock s).cadOut = cadOutLevels s := (cadOut_of_outer (outer_coreClock_run h) :)
    rw [hpins, cadOutLevels_getLsbD]
    rfl

/-! ## The turns of the cadences (R144, R147 to R149) -/

/-- What the cadences find at a tick: halted ones where the pin demands a cutoff, and TIME as the tick sets it. -/
theorem tickFinds_eq (k : BitVec 2) (s : State) :
    (tickFinds s).cadence k = (if PinDemands s then (s.cadence k).unfreshed.halted else (s.cadence k).unfreshed) ∧
    (tickFinds s).timebase.time = nextTime s.timebase := by
  obtain ⟨ctime, -⟩ := cutoffInstant_keeps (newInstant s)
  refine ⟨?_, ?_⟩
  · show (cutoffInstant (newInstant s)).cadence k = _
    split
    · rename_i hp
      rw [cutoffInstant_cadence_entry ((pinDemands_newInstant s).mpr hp), newInstant_cadence]
    · rename_i hp
      rw [cutoffInstant_cadence (mt (pinDemands_newInstant s).mp hp), newInstant_cadence]
  · show nextTime (cutoffInstant (newInstant s)).timebase = _
    rw [ctime, newInstant_timebase]

theorem Cadence.halted_not_live (c : Cadence) : ¬ c.halted.Live := by
  rw [← Cadence.live_iff, Cadence.halted_live]
  exact Bool.false_ne_true

theorem cadenceFalls_iff (k : BitVec 2) (s : State) : cadenceFalls k s = true ↔ TicksNext s k := by
  obtain ⟨hcad, htime⟩ := tickFinds_eq k s
  rw [cadenceFalls, cadenceDue_iff, hcad, htime]
  split
  · rename_i hp
    exact ⟨fun hl => absurd hl.1 (Cadence.halted_not_live _), fun hn => absurd hp hn.1⟩
  · rename_i hp
    exact (and_iff_right hp).symm

/-- The tick of a cadence, written out. -/
theorem Cadence.ticked_eq (c : Cadence) :
    let period := if c.periodStaged then c.periodStage else c.period
    let width := if c.widthStaged then c.widthStage else c.width
    c.ticked = { c with
      state := if period = 0 then .stopped else .running, ticks := c.ticks + 1
      next := if period = 0 then c.next else c.next + period.setWidth 48
      period := period, width := width, periodStaged := false, widthStaged := false
      pulse := if width = 0 then .acknowledged else .counted width
      overlap := c.overlap || c.pulse.isCounted, freshOverlap := c.freshOverlap || c.pulse.isCounted
      ackOverrun := c.ackOverrun || c.pulse == .acknowledged
      freshAckOverrun := c.freshAckOverrun || c.pulse == .acknowledged } := by
  simp only [Cadence.ticked, Cadence.schedule, Cadence.startPulse, Cadence.transfer]
  generalize (if c.periodStaged = true then c.periodStage else c.period) = p
  by_cases h : p = 0
  · simp only [if_pos h]
  · simp only [if_neg h]

/-- The tick's turn at the clock of a tick at which the cadence is due. -/
theorem coreClock_cadence_ticked (h : u.phase = .run) (hd : u.timebase.left ≤ 1) (ht : TicksNext u k) :
    (coreClock u).cadence k = (u.cadence k).unfreshed.ticked := by
  obtain ⟨hp, hlive, hnext⟩ := ht
  rw [coreClock_cadence h, if_neg hp, if_pos hd, Cadence.turned, if_pos]
  exact ⟨hlive, hnext⟩

/-- Settles O44. -/
theorem cadenceTickEffects : Obligations.CadenceTickEffects := by
  intro k s overtakes unserved ticked
  have hticked : ticked = Cadence.ticked := by
    funext c
    rw [Cadence.ticked_eq]
    simp only [ticked, overtakes, unserved]
    cases c.pulse <;> rfl
  refine ⟨fun hl hn => ?_, fun h => ⟨fun ht => ⟨?_, ?_⟩, fun ht => ?_⟩⟩
  · obtain ⟨caps, hcaps, hf⟩ := cadenceTick_flushed k s
    rw [cadenceTurn_due ⟨hl, hn⟩, hticked]
    exact ⟨caps, hcaps, hf⟩
  · exact congrArg Host.Outcome.next (eventAtTick_falls h ((cadenceFalls_iff k _).mpr ht))
  · rw [coreClock_cadence_ticked (phase_clocks_run h _) (beforeTick_due h) ht, hticked]
    rfl
  · exact congrArg Host.Outcome.next (eventAtTick_quiet (mt (cadenceFalls_iff k _).mp ht))

/-- The next tick takes the last count of the cadence's pulse. -/
theorem pulseEndFalls_iff (k : BitVec 2) (s : State) : pulseEndFalls k s = true ↔
    ((s.cadence k).pulse = .counted 0 ∨ (s.cadence k).pulse = .counted 1) ∧ ¬ PinDemands s ∧ ¬ TicksNext s k := by
  have hlast (n : BitVec 16) : n.toNat ≤ 1 ↔ n = 0 ∨ n = 1 := by
    rw [← BitVec.toNat_inj, ← BitVec.toNat_inj]
    show _ ↔ n.toNat = 0 ∨ n.toNat = 1
    omega
  have hdue : cadenceDue k (tickFinds s) = true ↔ TicksNext s k := cadenceFalls_iff k s
  obtain ⟨hcad, -⟩ := tickFinds_eq k s
  by_cases hp : PinDemands s
  · rw [if_pos hp] at hcad
    simp [pulseEndFalls, hcad, Cadence.halted, hp]
  · rw [if_neg hp] at hcad
    simp only [pulseEndFalls, hcad, Cadence.unfreshed]
    cases hpulse : (s.cadence k).pulse with
    | off => simp
    | acknowledged => simp
    | counted n =>
      rw [Bool.and_eq_true, Bool.not_eq_true', decide_eq_true_iff, hlast, ← Bool.not_eq_true, hdue]
      simp [hp]

/-- Settles O45. -/
theorem countedPulsesEnd : Obligations.CountedPulsesEnd := by
  intro k s
  refine ⟨fun hn => ?_, fun h => ⟨fun he => ⟨?_, ?_⟩, fun he => ?_⟩⟩
  · rw [cadenceTurn_not_due hn]
    refine State.mapCadence_congr ?_
    cases (s.cadence k).pulse <;> rfl
  · exact congrArg Host.Outcome.next (eventAtTick_falls h ((pulseEndFalls_iff k _).mpr he))
  · obtain ⟨hpulse, hp, ht⟩ := he
    have hno : ¬ (((clocks (s.timebase.left - 1) s).cadence k).unfreshed.Live ∧
        ((clocks (s.timebase.left - 1) s).cadence k).unfreshed.next = nextTime (clocks (s.timebase.left - 1) s).timebase) :=
      fun hl => ht ⟨hp, hl⟩
    rw [coreClock_cadence (phase_clocks_run h _), if_neg hp, if_pos (beforeTick_due h), Cadence.turned, if_neg hno]
    show (Pulse.countDown ((clocks (s.timebase.left - 1) s).cadence k).pulse) = .off
    rcases hpulse with e | e <;> rw [e] <;> rfl
  · exact congrArg Host.Outcome.next (eventAtTick_quiet (mt (pulseEndFalls_iff k _).mp he))

/-! ## Cutoff (R21, R152, R153) -/

/-- Settles O46. -/
theorem cutoffEntryStopsTheCadences : Obligations.CutoffEntryStopsTheCadences := by
  intro x w s enters sampled
  have entered (cause : CutoffCause) (s : State) : enters cause s (enterCutoff cause s) := by
    obtain ⟨hcads, hf⟩ := enterCutoff_flushed cause s
    exact ⟨(enterCutoff cause s).cadences, hcads, hf⟩
  refine ⟨fun h hw => ⟨fun ha => ?active, fun ha => ?normal⟩, fun hp => cutoffInstant_quiet hp, fun hp => ?entry,
    fun h => ⟨fun hp => ⟨?row, ?cutoff⟩, fun hp => ⟨?noRow, ?sample⟩⟩⟩
  case active =>
    have h0 : bit w 0 = true := hw
    refine performs_write_either h (r := .cutoffTrigger) rfl (fixedWord_1_0 h0) rfl ?_
    show softTrigger w s = s
    rw [softTrigger, ha, Bool.not_true, Bool.and_false, if_neg Bool.false_ne_true]
  case normal =>
    have h0 : bit w 0 = true := hw
    refine ⟨enterCutoff .soft s, entered .soft s, performs_write_either h (r := .cutoffTrigger) rfl (fixedWord_1_0 h0) rfl ?_⟩
    show softTrigger w s = _
    rw [softTrigger, h0, ha]
    rfl
  case entry =>
    rw [cutoffInstant_entry hp]
    exact entered .pin sampled
  case row => exact congrArg Host.Outcome.next (eventAtClock_falls h ((detectionFalls_iff s).mpr hp))
  case cutoff =>
    show (coreClock s).cutoff = _
    rw [coreClock_cutoff h, cutoffInstant_cutoff, if_pos hp]
    rfl
  case noRow => exact congrArg Host.Outcome.next (eventAtClock_quiet (mt (detectionFalls_iff s).mp hp))
  case sample =>
    show (coreClock s).cutoff = _
    rw [coreClock_cutoff h, cutoffInstant_cutoff, if_neg hp]
    rfl

/-- While CONFIG_LOCK is 0, or PIN_EN stays as it is, the steward's CUTOFF_CONTROL write is not refused (R21). -/
theorem writeRefusal_cutoffControl (hl : s.configLock = false ∨ w.getLsbD 0 = s.cutoff.pinEn) :
    writeRefusal s .A .cutoffControl w = none := by
  have hlock : lockRefuses s .cutoffControl w = false := by
    rcases hl with hl | hl
    · simp [lockRefuses, hl]
    · simp [lockRefuses, inLockedSet, show (bit w 0 != s.cutoff.pinEn) = false from bne_eq_false_iff_eq.mpr hl]
  simp [writeRefusal, hlock, configBusy]

/-- Each clock but those under pin reset samples CUTOFF_N. -/
theorem coreClock_samples (h : s.phase ≠ .held) :
    (coreClock s).cutoff.sample = s.pins.cutoffN ∧ (coreClock s).cutoff.previous = s.cutoff.sample := by
  rcases coreClock_cases s with ⟨hh, _⟩ | ⟨n, _, he⟩ | ⟨n, _, he⟩ | ⟨hr, _⟩
  · exact absurd hh h
  · rw [he]; exact ⟨rfl, rfl⟩
  · rw [he]
    obtain ⟨-, hcut, -⟩ := (sampleCaptures_keeps { sampleCutoff (advanceLinks s) with
      phase := .run, timebase := { s.timebase with left := s.timebase.prescale.toNat + 1 } }).1
    rw [show (beginOperation (sampleCutoff (advanceLinks s))).cutoff = _ from hcut]
    exact ⟨rfl, rfl⟩
  · rw [coreClock_cutoff hr, cutoffInstant_cutoff]
    split <;> exact ⟨rfl, rfl⟩

/-- Settles O47. -/
theorem cutoffControlAndPin : Obligations.CutoffControlAndPin := by
  intro w level pins s c
  refine ⟨fun h hl => ⟨fun hw => ?write, fun hw => ?clear⟩, fun h hl hp => ?locked, ⟨rfl, fun h => coreClock_held h,
    fun h => coreClock_samples (s := { s with pins := { pins with cutoffN := level } }) h⟩⟩
  case write =>
    have h1 : bit w 1 = false := by simpa [Instr.wellFormed] using hw
    refine performs_write h (r := .cutoffControl) rfl (fixedWord_0_2 h1) Writer.noConfusion (writeRefusal_cutoffControl hl) ?_
    show writeCutoffControl w s = _
    rw [writeCutoffControl, h1]
    rfl
  case clear =>
    have h1 : bit w 1 = true := hw
    refine performs_write h (r := .cutoffControl) rfl (fixedWord_2_0 h1) Writer.noConfusion (writeRefusal_cutoffControl hl) ?_
    show writeCutoffControl w s = _
    rw [writeCutoffControl, h1]
    simp only [if_true, Cutoff.cleared, Bool.not_eq_true', Bool.or_eq_true]
    rfl
  case locked =>
    exact faults_write h (request_ofTxn _ _) rfl Writer.noConfusion (writeRefusal_locked hl (.inr ⟨rfl, hp⟩))

/-! ## Captures (R155 to R159) -/

/-- Settles O48. -/
theorem captureRegistersStoreAndConsume : Obligations.CaptureRegistersStoreAndConsume := by
  intro x k w s
  refine ⟨fun h hl => ?_, fun h => ?_⟩
  · exact performs_write_unlocked h hl (r := .capConfig k) rfl rfl Writer.noConfusion rfl rfl
  · refine performs_of_request h (t := readOf (.capTimeLo k)) rfl ?_
    rw [access_readOf, regAccess_read, ← loWord_eq]
    rfl

/-- The levels of the row: the named pin shows the edge's new level, the others what they show (log 7). -/
theorem withCapIn_getLsbD (pins : Pins) (k j : BitVec 2) (v : Bool) :
    (withCapIn pins k v).capIn.getLsbD j.toNat = if j = k then v else pins.capIn.getLsbD j.toNat := by
  have hbit : ∀ j k : BitVec 2, ((1 : BitVec 4) <<< k.toNat).getLsbD j.toNat = decide (j = k) := by decide
  have hlt : j.toNat < 4 := j.isLt
  cases v with
  | true =>
    show ((pins.capIn ||| (1 : BitVec 4) <<< k.toNat).getLsbD j.toNat) = _
    rw [BitVec.getLsbD_or, hbit]
    by_cases e : j = k <;> simp [e]
  | false =>
    show ((pins.capIn &&& ~~~((1 : BitVec 4) <<< k.toNat)).getLsbD j.toNat) = _
    rw [BitVec.getLsbD_and, BitVec.getLsbD_not, hbit]
    by_cases e : j = k <;> simp [e, hlt]

/-- Settles O49. -/
theorem edgesAreCapturedOrDiscarded : Obligations.EdgesAreCapturedOrDiscarded := by
  intro k e pins s
  obtain ⟨hcaps, hrest⟩ := sampleCaptures_eq s
  refine ⟨⟨(sampleCaptures s).captures, hrest, hcaps⟩, withCapIn pins k e.level, rfl, fun j => ?_, rfl, rfl,
    fun h => coreClock_held h, fun h j => coreClock_capture (s := { s with pins := withCapIn pins k e.level }) h j⟩
  rw [withCapIn_getLsbD]
  cases e <;> rfl

end Sys2Proof.Machine
end

section
/-! The liveness monitors at a tick: counting, the warning, and the expiry of a port (chapter 10). -/

namespace Sys2Proof.Machine

-- Elaborates the proofs in order, none beside the tests' kernel evaluations: each that waits there costs a thread's memory.
set_option deprecated.oldSectionVars true

variable {s t u : State} {x y : Port} {w : Word}

/-! ## The commands of the monitors (R162, R168) -/

theorem performs_liveLimit (h : Takes .A s) (hl : s.configLock = false) (y : Port) (w : Word) :
    Performs (.liveLimitWrite (solo .A) y w) .A 0 s
      (s.mapBank y fun b =>
        { b with monitor := { b.monitor with limit := w.extractLsb' 0 16, count := 0, phase := 0, warned := false } }) := by
  refine performs_write_unlocked h hl (r := .liveLimit y) rfl rfl Writer.noConfusion rfl ?_
  simp only [regWrite, writeLiveLimit, setWidth_16_eq]
  rfl

theorem performs_rejoin (h : Takes x s) (hw : (Instr.rejoin (solo x) w).wellFormed = true) {u : State}
    (hu : rejoinPort x s = u) : Performs (.rejoin (solo x) w) x 0 s u := by
  obtain ⟨h1, h0⟩ : bit w 1 = true ∧ bit w 0 = false := by simpa [Instr.wellFormed] using hw
  have hreq : (Instr.rejoin (solo x) w).request = some (solo x, writeTo .portControl w) := by
    rw [Instr.request, fixedWord_2_1 h1 h0]
  refine performs_write_own h hreq rfl ?_
  show writePortControl x w s = u
  simp only [writePortControl, h0, h1, if_true]
  exact hu

/-! ## What a tick latches -/

/-- Line `l` of port `y` is latched. -/
def State.Latched (s : State) (y : Port) (l : Nat) : Prop := (s.bank y).events.latches.getLsbD l = true

theorem latched_expire {l : Nat} (h : s.Latched y l) (x : Port) : (expire x s).Latched y l := by
  rcases Port.eq_or_eq_other y x with rfl | rfl
  · rw [State.Latched, expire_bank_self]
    show (if _ then _ else _ : BitVec 16).getLsbD l = true
    split
    · rw [BitVec.getLsbD_or, show (s.bank y).events.latches.getLsbD l = true from h, Bool.true_or]
    · exact h
  · rw [State.Latched, expire_bank_other]
    show ((s.bank x.other).events.latches ||| 0x1000).getLsbD l = true
    rw [BitVec.getLsbD_or, show (s.bank x.other).events.latches.getLsbD l = true from h, Bool.true_or]

theorem latched_tallied {l : Nat} (h : s.Latched y l) (x : Port) : (tallied x s).Latched y l := by
  have hmap : (s.mapBank x fun b => { b with monitor := (s.bank x).monitor.counted }).Latched y l := by
    rw [State.Latched, State.bank_mapBank]
    split
    · rename_i e; subst e; exact h
    · exact h
  simp only [tallied]
  split
  · rw [State.Latched, State.latch, State.bank_mapBank]
    split
    · rename_i e
      subst e
      show (_ ||| oneHot 13 : BitVec 16).getLsbD l = true
      rw [BitVec.getLsbD_or, show BitVec.getLsbD _ l = true from hmap, Bool.true_or]
    · exact hmap
  · exact hmap

theorem latched_countLiveness {l : Nat} (h : s.Latched y l) (x : Port) : (countLiveness x s).Latched y l := by
  by_cases hc : (s.bank x).monitor.Counting
  · rw [countLiveness_counting hc]
    split
    · exact latched_expire (latched_tallied h x) x
    · exact latched_tallied h x
  · rw [countLiveness_idle hc]; exact h

theorem latched_warns (h : (s.bank x).monitor.WarnsNext) : (countLiveness x s).Latched x 13 := by
  have ht : (tallied x s).Latched x 13 := by
    simp only [tallied, if_pos h, State.Latched, State.latch, State.bank_mapBank_same]
    show (_ ||| oneHot 13 : BitVec 16).getLsbD 13 = true
    rw [BitVec.getLsbD_or, show (oneHot 13).getLsbD 13 = true by decide, Bool.or_true]
  rw [countLiveness_counting h.1]
  split
  · exact latched_expire ht x
  · exact ht

theorem tickLiveness_latched (h : (s.bank x).monitor.WarnsNext) : (tickLiveness s).Latched x 13 := by
  cases x with
  | A => exact latched_countLiveness (latched_warns h) .B
  | B =>
    refine latched_warns ?_
    obtain ⟨-, hmon⟩ := countLiveness_units .A .B s
    rw [hmon]
    exact h

theorem latched_advanceSweep {l : Nat} (h : s.Latched y l) (x : Port) : (advanceSweep x s).Latched y l := by
  rw [State.Latched, advanceSweep, State.mapView, State.bank_mapBank]
  split
  · rename_i e; subst e; exact h
  · exact h

/-- The clock of a tick gives the warning. -/
theorem coreClock_latched (h : u.phase = .run) (hd : u.timebase.left ≤ 1) (hw : (u.bank x).monitor.WarnsNext) :
    (coreClock u).Latched x 13 := by
  obtain ⟨ctime, -, -, cunits⟩ := cutoffInstant_keeps (newInstant u)
  have hunits : (sampleCaptures (timeInstant (cutoffInstant (newInstant u)))).units = u.units := by
    rw [(sampleCaptures_keeps _).2, (timeInstant_turns _).1.2.2.2]
    exact (units_of_banks rfl).trans (cunits.trans (units_newInstant u))
  have hdue : tickDue (cutoffInstant (newInstant u)) = true := by
    rw [tickDue, ctime, newInstant_timebase]
    exact decide_eq_true hd
  rw [coreClock_run h, runEvents_eq, hdue]
  refine latched_advanceSweep (latched_advanceSweep (tickLiveness_latched ?_) .A) .B
  rw [monitor_of_units hunits]
  exact hw

/-! ## The warning (R163, R165) -/

theorem Monitor.lived_warned {m : Monitor} (h : m.WarnsNext) : m.lived.warned = true := by
  have hw : m.counted.warned = true := by
    rw [Monitor.counted_of_warns h]
  rw [Monitor.lived, if_pos h.1]
  split <;> exact hw

theorem warningFalls_iff (x : Port) (s : State) : warningFalls x s = true ↔ (s.bank x).monitor.WarnsNext := by
  rw [warningFalls, Bool.and_eq_true, beq_iff_eq]
  exact ⟨fun h => (Monitor.warningDue_iff _ h.1).mp h.2, fun h => ⟨h.2.1, (Monitor.warningDue_iff _ h.2.1).mpr h⟩⟩

/-- Settles O50. -/
theorem livenessCommandsAndWarning : Obligations.LivenessCommandsAndWarning := by
  intro x y w s
  refine ⟨fun h hl => performs_liveLimit h hl y w, fun h hw => ⟨fun ha => ?active, fun ha => ?absent⟩,
    ⟨countLiveness_idle, fun hc he => ?counts⟩, fun h => ⟨fun hw => ⟨?row, ?warned, ?latched⟩, fun hw => ?noRow⟩⟩
  case active => exact performs_rejoin h hw (if_pos ha)
  case absent =>
    refine performs_rejoin h hw ?_
    rw [rejoinPort, ha]
    rfl
  case counts => rw [countLiveness_counting hc, if_neg he]; rfl
  case row => exact congrArg Host.Outcome.next (eventAtTick_falls h ((warningFalls_iff x _).mpr hw))
  case warned =>
    show ((coreClock _).bank x).monitor.warned = true
    rw [(coreClock_units (phase_clocks_run h _) x).2, if_pos (beforeTick_due h)]
    exact Monitor.lived_warned hw
  case latched => exact coreClock_latched (phase_clocks_run h _) (beforeTick_due h) hw
  case noRow => exact congrArg Host.Outcome.next (eventAtTick_quiet (mt (warningFalls_iff x _).mp hw))

/-! ## The expiry (R107, R108, R117, R166) -/

theorem tallied_conduit (x : Port) (s : State) (n : BitVec 4) : (tallied x s).conduit n = s.conduit n := by
  simp only [tallied]
  split <;> rfl

theorem tallied_token (x : Port) (s : State) (n : BitVec 4) : (tallied x s).token n = s.token n := by
  simp only [tallied]
  split <;> rfl

theorem tallied_bank_other (x : Port) (s : State) : (tallied x s).bank x.other = s.bank x.other := by
  simp only [tallied]
  split
  · rw [State.latch, State.bank_mapBank_other, State.bank_mapBank_other]
  · rw [State.bank_mapBank_other]

theorem tallied_bank_self (x : Port) (s : State) : (tallied x s).bank x =
    { (if (s.bank x).monitor.WarnsNext then s.latch x 13 else s).bank x with monitor := (s.bank x).monitor.counted } := by
  simp only [tallied]
  split
  · rw [State.latch, State.latch, State.bank_mapBank_same, State.bank_mapBank_same, State.bank_mapBank_same]
  · rw [State.bank_mapBank_same]

/-- The warning reaches the latches and their marks alone. -/
theorem warned_bank (p : Prop) [Decidable p] (x : Port) (s : State) :
    ((if p then s.latch x 13 else s).bank x).records = (s.bank x).records ∧
    ∀ new, commitMarks new ((if p then s.latch x 13 else s).bank x) = commitMarks new (s.bank x) := by
  split
  · rw [State.latch, State.bank_mapBank_same]
    exact ⟨rfl, fun new => by cases new <;> rfl⟩
  · exact ⟨rfl, fun _ => rfl⟩

/-- The slot that the lost port read on the conduit becomes VISIBLE again (R107, R108). -/
def Conduit.freedOnLoss (c : Conduit) (x : Port) : Prop :=
  c.enabled = true ∧ c.holdOnLoss = false ∧ x ≠ c.producer ∧ c.reading ≠ none ∧ (c.mode = 1 → c.visible = [] ∧ c.ready = [])

theorem expire_commitMarks (new : Bool) (x : Port) (s : State) (n : BitVec 4) :
    (commitMarks new ((expire x s).bank x)).getLsbD n.toNat = true ↔
      (commitMarks new (s.bank x)).getLsbD n.toNat = true ∨ (s.conduit n).freedOnLoss x := by
  have h := (revoke_visited x true (lost x s)).notice new x n
  have hmarks : commitMarks new ((lost x s).bank x) = commitMarks new (s.bank x) := by
    rw [lost_bank_self]
    cases new <;> rfl
  have hconduit : (lost x s).conduit n = s.conduit n :=
    congrArg (fun u : State × (Port → Bool) => u.1.conduit n) (unbanked_lost x s)
  rw [expire_eq, (releaseTokensOf_withdrawn x _).own, h, hmarks, hconduit]
  simp only [Conduit.freedOnLoss, revocationNotes, true_and, Bool.not_eq_true, and_assoc]

theorem expire_tokenMarks (new : Bool) (x : Port) (s : State) (n : BitVec 4) :
    (tokenMarks new ((expire x s).bank x.other)).getLsbD n.toNat = true ↔
      (tokenMarks new (s.bank x.other)).getLsbD n.toNat = true ∨
        ((s.token n).holder = some x ∧ (s.token n).wait.get x.other = true) := by
  have h := (releaseTokensOf_withdrawn x (revoke x true (lost x s))).notice new n
  have hmarks : tokenMarks new ((lost x s).bank x.other) = tokenMarks new (s.bank x.other) := by
    rw [lost_bank_other]
    cases new <;> rfl
  have htoken : (lost x s).token n = s.token n :=
    congrArg (fun u : State × (Port → Bool) => u.1.token n) (unbanked_lost x s)
  rw [expire_eq, h, revoke_bank_other, hmarks, State.token, revoke_tokens, ← State.token, htoken]
  simp only [true_and]

theorem expiryFalls_iff (x : Port) (s : State) : expiryFalls x s = true ↔ (s.bank x).monitor.ExpiresNext := by
  have hdue (m : Monitor) : m.advance.expiryDue = m.counted.expiryDue := rfl
  rw [expiryFalls, Bool.and_eq_true, beq_iff_eq]
  exact ⟨fun h => (Monitor.expiryDue_counted _ h.1).mp h.2, fun h => ⟨h.2.1, (Monitor.expiryDue_counted _ h.2.1).mpr h⟩⟩

/-- Settles O51. -/
theorem expiryRevokesAndReleases : Obligations.ExpiryRevokesAndReleases := by
  intro x s m
  refine ⟨fun he => ?_, fun h => ⟨fun he => ⟨?row, ?gone⟩, fun he => ?noRow⟩⟩
  case row => exact congrArg Host.Outcome.next (eventAtTick_falls h ((expiryFalls_iff x _).mpr he))
  case gone =>
    have hm : ((coreClock (clocks (s.timebase.left - 1) s)).bank x).monitor =
        { ((clocks (s.timebase.left - 1) s).bank x).monitor.counted with
        presence := .absent, lastCause := .expired } := by
      rw [(coreClock_units (phase_clocks_run h _) x).2, if_pos (beforeTick_due h), Monitor.lived, if_pos he.1, if_pos he]
    obtain ⟨-, hphase, hcount⟩ := he
    rw [hm]
    refine ⟨rfl, rfl, ?_⟩
    show (if _ then _ else _) = _
    rw [if_pos hphase]
    exact hcount
  case noRow => exact congrArg Host.Outcome.next (eventAtTick_quiet (mt (expiryFalls_iff x _).mp he))
  intro t warned n freed handed
  have ht : t = expire x (tallied x s) := by
    show countLiveness x s = _
    rw [countLiveness_counting he.1, if_pos he]
  obtain ⟨hrecords, hmarks⟩ := warned_bank m.WarnsNext x s
  have hself : (tallied x s).bank x = { warned.bank x with monitor := m.counted } := tallied_bank_self x s
  have hn : n = (warned.bank x).records.cntLoss := congrArg Records.cntLoss hrecords.symm
  have hcommit (new : Bool) : commitMarks new ((tallied x s).bank x) = commitMarks new (s.bank x) := by
    rw [← hmarks new, hself]
    cases new <;> rfl
  refine ⟨?own, ?partner, fun n => ⟨?notice, ?freshCommit, ?token, ?freshToken⟩, fun c => ?conduit, fun k => ?held, ?rest⟩
  case own =>
    have h := expire_bank_self x (tallied x s)
    rw [← ht, hself] at h
    generalize warned.bank x = b at h hn ⊢
    clear_value n
    subst hn
    exact h
  case partner =>
    have h := expire_bank_other x (tallied x s)
    rw [← ht, tallied_bank_other] at h
    exact h
  case notice =>
    have h := expire_commitMarks false x (tallied x s) n
    rw [← ht, hcommit, tallied_conduit] at h
    exact h
  case freshCommit =>
    have h := expire_commitMarks true x (tallied x s) n
    rw [← ht, hcommit, tallied_conduit] at h
    exact h
  case token =>
    have h := expire_tokenMarks false x (tallied x s) n
    rw [← ht, tallied_bank_other, tallied_token] at h
    exact h
  case freshToken =>
    have h := expire_tokenMarks true x (tallied x s) n
    rw [← ht, tallied_bank_other, tallied_token] at h
    exact h
  case conduit => rw [ht, expire_conduit, tallied_conduit]
  case held => rw [ht, expire_token, tallied_token]
  case rest =>
    rw [ht]
    exact (sameShared_tallied x s).trans (sameShared_expire x _)

end Sys2Proof.Machine
end

section
/-! The store byte by byte, pin reset and initialization, and two transactions taken at one instant (chapters 1, 2, 11). -/

namespace Sys2Proof.Machine

-- Elaborates the proofs in order, none beside the tests' kernel evaluations: each that waits there costs a thread's memory.
set_option deprecated.oldSectionVars true

variable {s : State} {x y : Port} {t u : Txn} {w v : Word}

/-! ## The bytes of a store access (R2, R25, R39) -/

/-- Bytes of one word written lane by lane, those that `p` selects. -/
def Memory.writeLanes (p : Nat → Bool) (i : BitVec 16) (d : Word) (l : List Nat) (m : List Host.Cell) : List Host.Cell :=
  l.foldl (fun m n => if p n then Memory.write m (4 * i.toNat + n) (byteOf d n) else m) m

theorem Memory.store_eq (m : List Host.Cell) (a : StoreAddr) (size : BitVec 2) (d : Word) : Memory.store m a size d =
    Memory.writeLanes (touches (a.extractLsb' 0 2) size) (wordIndex a) d [0, 1, 2, 3] m := rfl

theorem Memory.storeWord_eq (m : List Host.Cell) (i : BitVec 16) (d : Word) : Memory.storeWord m i d =
    Memory.writeLanes (fun _ => true) i d [0, 1, 2, 3] m := rfl

theorem Memory.read_writeLanes (p : Nat → Bool) (i : BitVec 16) (d : Word) (l : List Nat) {m : List Host.Cell}
    (hm : Memory.wf m = true) (hl : ∀ n ∈ l, n < 4) (b : Nat) : Memory.read (Memory.writeLanes p i d l m) b =
      if 4 * i.toNat ≤ b ∧ b - 4 * i.toNat ∈ l ∧ p (b - 4 * i.toNat) = true then byteOf d (b - 4 * i.toNat)
      else Memory.read m b := by
  induction l generalizing m with
  | nil => simp [Memory.writeLanes]
  | cons n l ih =>
    have hn := hl n List.mem_cons_self
    have hl' : ∀ k ∈ l, k < 4 := fun k hk => hl k (List.mem_cons_of_mem n hk)
    show Memory.read (Memory.writeLanes p i d l (if p n then _ else m)) b = _
    by_cases hp : p n = true
    · rw [if_pos hp, ih (Memory.wf_write hm (word_byte_lt i hn) _) hl', Memory.read_write hm]
      by_cases e : b = 4 * i.toNat + n
      · subst e
        simp [hp]
      · have hne : 4 * i.toNat ≤ b → b - 4 * i.toNat ≠ n := by omega
        rw [if_neg e]
        by_cases hb : 4 * i.toNat ≤ b
        · simp [hb, hne hb]
        · simp [hb]
    · rw [if_neg hp, ih hm hl']
      by_cases e : b - 4 * i.toNat = n
      · simp [e, hp]
      · simp [e]

theorem toNat_wordIndex (a : StoreAddr) : (wordIndex a).toNat = a.toNat / 4 := by
  have := a.isLt
  rw [wordIndex, BitVec.extractLsb'_toNat, Nat.shiftRight_eq_div_pow]
  omega

/-- The lanes of an aligned access, as bytes of the store. -/
theorem touches_iff (a : StoreAddr) (size : BitVec 2) (n : Nat) :
    touches (a.extractLsb' 0 2) size n = true ↔
      a.toNat ≤ 4 * (a.toNat / 4) + n ∧ 4 * (a.toNat / 4) + n < a.toNat + 2 ^ size.toNat := by
  have hlo : (a.extractLsb' 0 2).toNat = a.toNat % 4 := by
    rw [BitVec.extractLsb'_toNat, Nat.shiftRight_zero]
  rw [touches, Bool.and_eq_true, decide_eq_true_iff, decide_eq_true_iff, hlo]
  omega

theorem byteOf_joinBytes (b : Nat → Byte) {n : Nat} (hn : n < 4) : byteOf (joinBytes (b 0) (b 1) (b 2) (b 3)) n = b n := by
  apply BitVec.eq_of_getLsbD_eq
  intro i hi
  have hi' : i < 8 := hi
  interval_cases n <;> simp [byteOf, joinBytes, hi'] <;> grind

theorem mem_lanes {n : Nat} : n ∈ [0, 1, 2, 3] ↔ n < 4 := by
  simp only [List.mem_cons, List.not_mem_nil, or_false]
  omega

/-- An aligned access stays within its word. -/
theorem touched_in_word (a : StoreAddr) {size : BitVec 2} (hs : size ≠ 3) (ha : a.toNat % 2 ^ size.toNat = 0) {b : Nat}
    (hb : a.toNat ≤ b ∧ b < a.toNat + 2 ^ size.toNat) : 4 * (a.toNat / 4) ≤ b ∧ b - 4 * (a.toNat / 4) < 4 := by
  have hsizes : ∀ z : BitVec 2, z ≠ 3 → z = 0 ∨ z = 1 ∨ z = 2 := by decide
  have hpow0 : 2 ^ (0 : BitVec 2).toNat = 1 := rfl
  have hpow1 : 2 ^ (1 : BitVec 2).toNat = 2 := rfl
  have hpow2 : 2 ^ (2 : BitVec 2).toNat = 4 := rfl
  rcases hsizes size hs with rfl | rfl | rfl
  · rw [hpow0] at ha hb; omega
  · rw [hpow1] at ha hb; omega
  · rw [hpow2] at ha hb; omega

theorem Memory.read_store {m : List Host.Cell} (hm : Memory.wf m = true) (a : StoreAddr) {size : BitVec 2} (hs : size ≠ 3)
    (ha : a.toNat % 2 ^ size.toNat = 0) (d : Word) (b : Nat) : Memory.read (Memory.store m a size d) b =
      if a.toNat ≤ b ∧ b < a.toNat + 2 ^ size.toNat then d.extractLsb' (8 * (b % 4)) 8 else Memory.read m b := by
  rw [Memory.store_eq, Memory.read_writeLanes _ _ _ _ hm (fun n hn => mem_lanes.mp hn), toNat_wordIndex]
  have hiff : (4 * (a.toNat / 4) ≤ b ∧ b - 4 * (a.toNat / 4) ∈ [0, 1, 2, 3] ∧
      touches (a.extractLsb' 0 2) size (b - 4 * (a.toNat / 4)) = true) ↔ a.toNat ≤ b ∧ b < a.toNat + 2 ^ size.toNat := by
    rw [mem_lanes, touches_iff]
    constructor
    · rintro ⟨h, -, hle, hlt⟩
      rw [Nat.add_sub_cancel' h] at hle hlt
      exact ⟨hle, hlt⟩
    · intro hb
      obtain ⟨hle, hlt⟩ := touched_in_word a hs ha hb
      rw [Nat.add_sub_cancel' hle]
      exact ⟨hle, hlt, hb⟩
  by_cases hb : a.toNat ≤ b ∧ b < a.toNat + 2 ^ size.toNat
  · obtain ⟨hle, hlt⟩ := touched_in_word a hs ha hb
    rw [if_pos hb, if_pos (hiff.mpr hb), byteOf, show b - 4 * (a.toNat / 4) = b % 4 by omega]
  · rw [if_neg hb, if_neg (mt hiff.mp hb)]

theorem Memory.read_storeWord {m : List Host.Cell} (hm : Memory.wf m = true) (i : BitVec 16) (d : Word) (b : Nat) :
    Memory.read (Memory.storeWord m i d) b =
      if 4 * i.toNat ≤ b ∧ b < 4 * i.toNat + 4 then d.extractLsb' (8 * (b % 4)) 8 else Memory.read m b := by
  rw [Memory.storeWord_eq, Memory.read_writeLanes _ _ _ _ hm fun n hn => mem_lanes.mp hn]
  by_cases hb : 4 * i.toNat ≤ b ∧ b < 4 * i.toNat + 4
  · rw [if_pos hb, if_pos ⟨hb.1, mem_lanes.mpr (by omega), rfl⟩, byteOf, show b - 4 * i.toNat = b % 4 by omega]
  · rw [if_neg hb, if_neg]
    rintro ⟨hle, hmem, -⟩
    have := mem_lanes.mp hmem
    omega

theorem byteOf_word (m : List Host.Cell) (i : BitVec 16) {n : Nat} (hn : n < 4) :
    byteOf (Memory.word m i) n = Memory.read m (4 * i.toNat + n) :=
  byteOf_joinBytes (fun n => Memory.read m (4 * i.toNat + n)) hn

theorem byteOf_maskLanes (lo size : BitVec 2) (w : Word) {n : Nat} (hn : n < 4) :
    byteOf (maskLanes lo size w) n = if touches lo size n then byteOf w n else 0 :=
  byteOf_joinBytes (fun n => if touches lo size n then byteOf w n else 0) hn

/-- Settles O15. -/
theorem memoryAccessTouchesItsBytes : Obligations.MemoryAccessTouchesItsBytes := by
  intro m a size d i hm hs ha touched
  refine ⟨Memory.read_store hm a hs ha d, fun n hn => ?_, Memory.read_storeWord hm i d⟩
  show byteOf (Memory.load m a size) n = _
  rw [Memory.load, byteOf_maskLanes _ _ _ hn, byteOf_word _ _ hn, toNat_wordIndex]
  simp only [touches_iff]
  rfl

/-! ## Pin reset (R170) -/

/-- The occupancy that a conduit shows after pin reset: its one slot FREE, no other slot. -/
theorem fieldsWord_occupancy_reset : fieldsWord (occupancyFields Conduit.reset) = 0xFFFFF8 := by decide

/-- Settles O54. -/
theorem pinResetLeavesTheTableValues : Obligations.PinResetLeavesTheTableValues := by
  intro s
  have conduit (n : BitVec 4) : (pinReset s).conduit n = Conduit.reset := Table.get_all 4 Conduit.reset n
  have bank (x : Port) : (pinReset s).bank x = Bank.reset := by cases x <;> rfl
  refine ⟨pinReset s, rfl, rfl, rfl, rfl, rfl, rfl, rfl, rfl, rfl, rfl, rfl, rfl, rfl, fun x => ⟨?link, ?irq, ?bank⟩,
    fun n => ⟨?descriptors, ?conduit, ?occupancy⟩, fun k => Table.get_all 4 Token.reset k,
    fun k => Table.get_all 2 Cadence.reset k, fun k => Table.get_all 2 Capture.reset k⟩
  case link => cases x <;> rfl
  case irq => cases x <;> rfl
  case bank =>
    rw [bank x]
    exact ⟨fun i => Table.get_all 6 none i, rfl, rfl, rfl, rfl, rfl, rfl, rfl, fun k => Table.get_all 2 0 k, rfl⟩
  case descriptors =>
    rw [conduit n]
    exact fun i => Table.get_all 3 Descriptor.zero i
  case conduit => rw [conduit n]; rfl
  case occupancy =>
    show fieldsWord (occupancyFields ((pinReset s).conduit n)) = _
    rw [conduit n, fieldsWord_occupancy_reset]

/-! ## Initialization (R171, R172) -/

theorem initResponse_eq (s : State) (y : Port) (t : Txn) : initResponse s y t =
    if t.size = 2 ∧ t.op = .read ∧ t.addr = 0x000000 then { resp := .okay, rdata := 0x00566002 }
    else if t.size = 2 ∧ t.op = .read ∧ t.addr = 0x000004 then
      { resp := .okay, rdata := fieldsWord (fieldsOf s y .bridgeStatus) }
    else { resp := .fault, rdata := 0 } := by
  rw [fieldsWord_bridgeStatus]
  rfl

theorem initResponse_other (h : ¬ (t.size = 2 ∧ t.op = .read ∧ (t.addr = 0x000000 ∨ t.addr = 0x000004))) :
    initResponse s x t = { resp := .fault, rdata := 0 } := by
  rw [initResponse_eq, if_neg, if_neg]
  · exact fun hr => h ⟨hr.1, hr.2.1, .inr hr.2.2⟩
  · exact fun hr => h ⟨hr.1, hr.2.1, .inl hr.2.2⟩

/-- A word cleared. -/
theorem read_clearWord (h : s.StoreCanonical) {n : Nat} (hn : n < 65536) (a : Nat) :
    Memory.read (clearWord n s).store a = if 4 * n ≤ a ∧ a < 4 * n + 4 then 0 else Memory.read s.store a := by
  have hi : (BitVec.ofNat 16 n).toNat = n := by rw [BitVec.toNat_ofNat, Nat.mod_eq_of_lt (by omega)]
  show Memory.read (Memory.storeWord s.store (BitVec.ofNat 16 n) 0) a = _
  rw [Memory.read_storeWord h, hi, show (0 : Word).extractLsb' (8 * (a % 4)) 8 = 0 from BitVec.extractLsb'_zero ..]

/-- Settles O55. -/
theorem initializationClearsTheStore : Obligations.InitializationClearsTheStore := by
  intro s hs
  refine ⟨fun h => ?start, fun h => ?again, fun n h hn => ⟨?phase, ?store, ?noEnd⟩,
    fun n c x t h hc hr ht => ?answer, fun h => ?ends⟩
  case start =>
    have hstart : startInit s = clearWord 0 (restartSamples s) := by rw [startInit, h]
    refine ⟨clearWord 0 (restartSamples s), congrArg Host.Outcome.next hstart, rfl, fun a => ?_, rfl, rfl⟩
    rw [read_clearWord (s := restartSamples s) hs (by decide)]
    simp only [Nat.mul_zero, Nat.zero_le, true_and, Nat.zero_add]
    rfl
  case again =>
    refine congrArg Host.Outcome.next ?_
    rw [startInit]
    split
    · rename_i hh; exact absurd hh h
    · rfl
  case phase => rw [coreClock_init h hn]; rfl
  case store =>
    rw [coreClock_init h hn]
    exact read_clearWord (s := sampleCutoff (advanceLinks s)) hs hn
  case noEnd =>
    refine congrArg Host.Outcome.next (if_neg ?_)
    rw [h]
    exact fun e => absurd (Phase.init.inj e) (Nat.ne_of_lt hn)
  case answer => rw [exec_init h hr hc, initResponse_other ht]
  case ends =>
    obtain ⟨hcaps, hrest⟩ := sampleCaptures_eq { sampleCutoff (advanceLinks s) with
      phase := .run, timebase := { s.timebase with left := s.timebase.prescale.toNat + 1 } }
    have hend : coreClock s = sampleCaptures { sampleCutoff (advanceLinks s) with
      phase := .run, timebase := { s.timebase with left := s.timebase.prescale.toNat + 1 } } :=
      coreClock_init_end h (Nat.lt_irrefl _)
    rw [← hend] at hcaps hrest
    refine ⟨coreClock s, congrArg Host.Outcome.next (if_pos h), ?_⟩
    have hsample (k : BitVec 2) : ((coreClock s).capture k).sample = some (s.pins.capIn.getLsbD k.toNat) := by
      rw [hcaps k]; rfl
    generalize coreClock s = t at hrest hsample ⊢
    generalize t.captures = caps at hrest
    rw [hrest] at hsample ⊢
    exact ⟨rfl, rfl, rfl, hsample, rfl, rfl, rfl, rfl, rfl⟩

/-! ## Two transactions at one instant (R1, R9, R11) -/

/-- A transaction's step in operation, where its access is performed. -/
theorem takeStep_okay (h : s.phase = .run) {d : Word} {v : State} (ha : access x t s = (v, .okay d)) :
    takeStep x t s = answered x { resp := .okay, rdata := d } s v := by
  rw [← answered_eq, takeStep, h]
  simp only [operate, ha, applyVerdict]

theorem takeStep_write_own (h : s.phase = .run) {r : Reg} (hr : writerOf r = .own) (w : Word) :
    takeStep x (writeTo r w) s = answered x { resp := .okay, rdata := 0 } s (regWrite x r w s) := by
  refine takeStep_okay h ?_
  have hw : writerOf r ≠ .readOnly := by rw [hr]; exact Writer.noConfusion
  rw [access_writeTo, regAccess, if_neg hw, writeRefusal_of_own hr w]

/-- Two transactions are taken one after the other, the port that TURN names first. -/
theorem takeBoth_eq (hp : s.phase ≠ .held) (ta tb : Txn) : takeBoth ta tb s =
    { takeStep s.turn.other (if s.turn.other = .A then ta else tb)
        (takeStep s.turn (if s.turn = .A then ta else tb) s) with turn := s.turn.other } := by
  unfold takeBoth
  cases hs : s.phase with
  | held => exact absurd hs hp
  | init n => cases ht : s.turn <;> rfl
  | run => cases ht : s.turn <;> rfl

theorem take_rival (hp : s.phase ≠ .held) (x : Port) (t u : Txn) : take { port := x, rival := some u } t s =
    { takeStep s.turn.other (if s.turn.other = x then t else u)
        (takeStep s.turn (if s.turn = x then t else u) s) with turn := s.turn.other } := by
  cases x with
  | A => exact takeBoth_eq hp t u
  | B =>
    refine (takeBoth_eq hp u t).trans ?_
    cases s.turn <;> rfl

theorem exec_rival {c : Instr} (hp : s.phase ≠ .held) (hr : ready { port := x, rival := some u } s = true)
    (hc : c.request = some ({ port := x, rival := some u }, t)) : exec c s = .next
      { takeStep s.turn.other (if s.turn.other = x then t else u)
          (takeStep s.turn (if s.turn = x then t else u) s) with turn := s.turn.other } := by
  rw [exec_request hc, present, awaitTake_ready hr, take_rival hp]

/-- Settles O4. -/
theorem turnOrdersCollidingSteps : Obligations.TurnOrdersCollidingSteps := by
  intro c x t u s hp hr hc txn one two reads
  refine ⟨exec_rival hp hr hc, ?turn, fun hrun => ?init⟩
  case turn => rw [turn_takeStep, turn_takeStep]
  case init =>
    obtain ⟨n, hn⟩ : ∃ n, s.phase = .init n := by
      cases hs : s.phase with
      | held => exact absurd hs hp
      | init n => exact ⟨n, rfl⟩
      | run => exact absurd hs hrun
    have hone : one = s.setLink s.turn (.taken (initResponse s s.turn (txn s.turn))) := takeStep_init hn
    have htwo : two = one.setLink s.turn.other (.taken (initResponse s s.turn.other (txn s.turn.other))) := by
      have hn' : one.phase = .init n := by rw [hone]; exact hn
      show takeStep _ _ one = _
      rw [takeStep_init hn']
      rw [hone]
      rfl
    refine ⟨by rw [htwo, hone]; rfl, fun y => ?_⟩
    rw [← initResponse_eq, htwo, hone]
    rcases Port.eq_or_eq_other y s.turn with rfl | rfl
    · rw [State.link, State.setLink, State.setLink, PerPort.get_set_ne _ _ (Port.ne_other s.turn), PerPort.get_set_same]
    · rw [State.link, State.setLink, State.setLink, PerPort.get_set_same]

/-- The answer to a transaction moves its link and its monitor alone. -/
theorem answered_bank (x y : Port) (r : Response) (s v : State) :
    ((answered x r s v).bank y).bells = (v.bank y).bells ∧ ((answered x r s v).bank y).fresh = (v.bank y).fresh := by
  show (((if (s.bank x).monitor.presence = .active then _ else _ : PerPort Bank).get y).bells = _ ∧
    ((if (s.bank x).monitor.presence = .active then _ else _ : PerPort Bank).get y).fresh = _)
  split
  · cases x <;> cases y <;> exact ⟨rfl, rfl⟩
  · exact ⟨rfl, rfl⟩

/-- A bell rung while it is cleared is set, whichever came first. -/
theorem ring_clear (i n m : BitVec 16) : (i ||| n) &&& ~~~(m &&& ~~~(0 ||| n)) = (i &&& ~~~m) ||| n := by
  ext j hj
  simp only [BitVec.getElem_and, BitVec.getElem_or, BitVec.getElem_not, BitVec.ofNat_eq_ofNat, BitVec.getElem_zero]
  cases i[j] <;> cases n[j] <;> cases m[j] <;> rfl

theorem clear_ring (i n m : BitVec 16) : (i &&& ~~~(m &&& ~~~0)) ||| n = (i &&& ~~~m) ||| n := by
  rw [BitVec.ofNat_eq_ofNat, BitVec.not_zero, BitVec.and_allOnes]

/-- Settles O5. -/
theorem ringSurvivesClearAtOneInstant : Obligations.RingSurvivesClearAtOneInstant := by
  intro w v s hrun hr hfresh
  have hp : s.phase ≠ .held := by rw [hrun]; exact Phase.noConfusion
  have clear (s : State) (h : s.phase = .run) : ((takeStep .A (writeTo .doorbellIn w) s).bank .A).bells.incoming =
      clearFlags (s.bank .A).bells.incoming (s.bank .A).fresh.bell w := by
    rw [takeStep_write_own h rfl, (answered_bank ..).1]
    rfl
  have ring (s : State) (h : s.phase = .run) :
      ((takeStep .B (writeTo .doorbellOut v) s).bank .A).bells.incoming = (s.bank .A).bells.incoming ||| v.setWidth 16 ∧
      ((takeStep .B (writeTo .doorbellOut v) s).bank .A).fresh.bell = (s.bank .A).fresh.bell ||| v.setWidth 16 := by
    rw [takeStep_write_own h rfl, (answered_bank ..).1, (answered_bank ..).2]
    exact ⟨rfl, rfl⟩
  refine ⟨_, exec_rival hp hr rfl, ?_⟩
  have hfresh' : (s.bank .A).fresh.bell = 0 := hfresh
  cases s.turn with
  | A =>
    have hclear := clear s hrun
    obtain ⟨hring, -⟩ := ring (takeStep .A (writeTo .doorbellIn w) s) ((phase_takeStep ..).trans hrun)
    rw [hclear, hfresh', clearFlags, clear_ring] at hring
    exact hring
  | B =>
    obtain ⟨hring, hmark⟩ := ring s hrun
    have hclear := clear (takeStep .B (writeTo .doorbellOut v) s) ((phase_takeStep ..).trans hrun)
    rw [hring, hmark, hfresh', clearFlags, ring_clear] at hclear
    exact hclear

end Sys2Proof.Machine
end

section
/-! View accesses: how the table, the view cache and direct translation judge them, and what each judgement comes to
(chapter 2, sections 2.2 to 2.5, and chapter 3, section 3.3). -/

namespace Sys2Proof.Machine

-- Elaborates the proofs in order, none beside the tests' kernel evaluations: each that waits there costs a thread's memory.
set_option deprecated.oldSectionVars true

variable {s u : State} {x : Port} {p o : BitVec 10} {off : BitVec 20} {size : BitVec 2} {op : BusOp} {wr : Bool}
  {w : Word} {j : Judgement} {r : DenyReason} {a : StoreAddr}

/-! ## A view access as a transaction -/

theorem pageOf_append (p o : BitVec 10) : pageOf (p ++ o) = p := by
  apply BitVec.eq_of_getLsbD_eq
  intro i hi
  rw [pageOf, BitVec.getLsbD_extractLsb', BitVec.getLsbD_append, if_neg (by omega), Nat.add_sub_cancel_left]
  simp [hi]

theorem inPage_append (p o : BitVec 10) : inPage (p ++ o) = o := by
  apply BitVec.eq_of_getLsbD_eq
  intro i hi
  rw [inPage, BitVec.getLsbD_extractLsb', Nat.zero_add, BitVec.getLsbD_append, if_pos hi]
  simp [hi]

/-- The transaction of a view access. -/
def viewTxn (off : BitVec 20) (size : BitVec 2) (op : BusOp) : Txn := { addr := viewAddr off, size := size, op := op }

theorem access_viewTxn (ha : aligned (viewAddr off) size = true) (x : Port) (op : BusOp) (s : State) :
    access x (viewTxn off size op) s = viewAccess x off size op s := by
  simp only [access, viewTxn, ha, space_viewAddr, Bool.not_true, Bool.false_eq_true, if_false]

/-- The walk leaves the deny record and TIME as they were. -/
theorem leaves_records (j : Judgement) (x y : Port) (p : BitVec 10) (s : State) :
    ((j.leaves x p s).bank y).records = (s.bank y).records ∧ (j.leaves x p s).timebase = s.timebase := by
  unfold Judgement.leaves
  split
  · rename_i w _
    by_cases h : entryForm w = .wellFormed
    · rw [walkEffects_wellFormed h]
      refine ⟨?_, rfl⟩
      cases x <;> cases y <;> rfl
    · rw [walkEffects_not_wellFormed h]
      exact ⟨rfl, rfl⟩
  · exact ⟨rfl, rfl⟩

/-- A deny condition recorded, written out (R57, R64, R65). -/
theorem denies_of_access (h : Takes x s) {c : Instr} {t : Txn} {acc : BitVec 2} {n : BitVec 4}
    (hc : c.request = some (solo x, t)) (ha : access x t s = (u, .denied r acc n))
    (hd : (u.bank x).records.deny = none) : Denies c x
      { write := isWrite t.op, size := t.size, reason := r, access := acc, conduit := n, addr := t.addr
        time := u.timebase.time.setWidth 32 } s u := by
  rw [Denies, exec_request hc, present_deny h ha hd, recordDeny, countEvent_eq _ _ _ (by decide), State.mapRecords,
    State.mapBank_mapBank]
  rfl

/-- A deny condition escalated (R58). -/
theorem faults_of_denied (h : Takes x s) {c : Instr} {t : Txn} {acc : BitVec 2} {n : BitVec 4}
    (hc : c.request = some (solo x, t)) (ha : access x t s = (u, .denied r acc n))
    (hd : (u.bank x).records.deny ≠ none) : Faults c x t .doubleDeny s u := by
  obtain ⟨d, hd⟩ := Option.ne_none_iff_exists'.mp hd
  rw [Faults, exec_request hc, present_double_deny h ha hd, recordFault, countEvent_eq _ _ _ (by decide), State.mapRecords,
    State.mapBank_mapBank]
  congr 3
  funext b
  cases b.records.fault <;> rfl

section outcomes

variable (h : Takes x s) (ha : aligned (viewAddr off) size = true) (he : (s.bank x).view.enable = true)

include h ha

theorem faults_view_disabled (he : (s.bank x).view.enable = false) (op : BusOp) :
    Faults (.viewAccess (solo x) off size op) x (viewTxn off size op) .viewOff s s :=
  faults_of_request h rfl ((access_viewTxn ha x op s).trans (viewAccess_disabled size he op))

include he

theorem performs_view_read (hj : judge s x (pageOf off) (inPage off) false = j) (ho : j.outcome = .ok a) :
    Performs (.viewAccess (solo x) off size .read) x (Memory.load s.store a size) s (j.leaves x (pageOf off) s) :=
  performs_of_request h rfl ((access_viewTxn ha x .read s).trans (viewAccess_read size he hj ho))

theorem performs_view_write (hj : judge s x (pageOf off) (inPage off) true = j) (ho : j.outcome = .ok a) (d : Word) :
    Performs (.viewAccess (solo x) off size (.write d)) x 0 s
      { j.leaves x (pageOf off) s with store := Memory.store (j.leaves x (pageOf off) s).store a size d } :=
  performs_of_request h rfl ((access_viewTxn ha x (.write d) s).trans (viewAccess_write size he hj ho d))

/-- A denied access is recorded where the deny record is EMPTY, and escalated where it is LATCHED (R57, R58). -/
theorem denied_view (hj : judge s x (pageOf off) (inPage off) (isWrite op) = j) (ho : j.outcome = .error r) :
    ((s.bank x).records.deny = none → Denies (.viewAccess (solo x) off size op) x
      { write := isWrite op, size := size, reason := r, access := j.entry.access, conduit := denyConduit r j.entry
        addr := viewAddr off, time := s.timebase.time.setWidth 32 } s (j.leaves x (pageOf off) s)) ∧
    ((s.bank x).records.deny ≠ none →
      Faults (.viewAccess (solo x) off size op) x (viewTxn off size op) .doubleDeny s (j.leaves x (pageOf off) s)) := by
  have hacc := (access_viewTxn ha x op s).trans (viewAccess_denied size he hj ho)
  obtain ⟨hrec, htime⟩ := leaves_records j x x (pageOf off) s
  refine ⟨fun hd => ?_, fun hd => faults_of_denied h rfl hacc (by rw [hrec]; exact hd)⟩
  have hden := denies_of_access h (c := .viewAccess (solo x) off size op) rfl hacc (by rw [hrec]; exact hd)
  rw [htime] at hden
  exact hden

end outcomes

/-! ## How an access is judged (R31, R33, R34, R38) -/

theorem refusedBy_eq_none (acc : BitVec 2) (wr : Bool) : refusedBy acc wr = none ↔ Permits acc wr := by
  revert acc wr
  unfold Permits
  decide

theorem judge_direct (he : (s.bank x).view.enable = true) (hd : (s.bank x).view.direct = true) (hl : s.configLock = false)
    (p o : BitVec 10) (wr : Bool) : judge s x p o wr =
      if p.toNat < 256 then
        { hit := false, entry := { kind := false, access := 3, target := p.extractLsb' 0 8 }, walked := none
          outcome := .ok (p.extractLsb' 0 8 ++ o) }
      else { hit := false, entry := { kind := false, access := 0, target := 0 }, walked := none, outcome := .error .noAccess } := by
  have hdir : directInEffect s x = true := by simp [directInEffect, he, hd, hl]
  simp only [judge, hdir, if_true]
  rfl

theorem not_directInEffect (hd : (s.bank x).view.direct = false ∨ s.configLock = true) : directInEffect s x = false := by
  rcases hd with hd | hd <;> simp [directInEffect, hd]

theorem lookup_hit {v : ViewUnit} {e : CacheEntry} (hs : v.sweep = none) (he : v.cache.get (p.extractLsb' 0 6) = some e)
    (ht : e.tag = p.extractLsb' 6 4) (hp : Permits e.access wr) :
    lookup v p wr = some { kind := e.kind, access := e.access, target := e.target } := by
  have hr : refusedBy e.access wr = none := (refusedBy_eq_none _ _).mpr hp
  simp only [lookup, hs, Option.isSome_none, Bool.false_eq_true, if_false, cacheIndex, he, cacheTag, ht, hr, and_self, if_true]

/-- A well-tagged entry is refused exactly by an ACCESS that does not permit the direction. -/
theorem not_permits_iff (acc : BitVec 2) (wr : Bool) : ¬ Permits acc wr ↔ acc = 0 ∨ (wr = true ∧ acc ≠ 3) := by
  revert acc wr
  unfold Permits
  decide

theorem lookup_miss {v : ViewUnit} (h : CacheMisses v p wr) : lookup v p wr = none := by
  rcases h with h | h
  · exact if_pos h
  · unfold lookup
    split
    · rfl
    · split
      · rfl
      · rename_i e he
        rw [if_neg]
        rintro ⟨ht, hr⟩
        rcases h e he with h | h
        · exact h ht
        · exact (not_permits_iff _ _).mpr h ((refusedBy_eq_none _ _).mp hr)

theorem judge_hit (hd : (s.bank x).view.direct = false ∨ s.configLock = true) {e : Entry}
    (hl : lookup (s.bank x).view p wr = some e) (o : BitVec 10) : judge s x p o wr =
      { hit := true, entry := e, walked := none, outcome := judgeEntry s x e wr o } := by
  simp only [judge, not_directInEffect hd, hl, Bool.false_eq_true, if_false]

/-- The outcome of a walk that read the word `w`. -/
def walkOutcome (s : State) (x : Port) (w : Word) (wr : Bool) (o : BitVec 10) : Except DenyReason StoreAddr :=
  match entryForm w with
  | .noAccess => .error .noAccess
  | .malformed => .error .malformed
  | .wellFormed => judgeEntry s x (entryOf w) wr o

theorem judge_walk (hd : (s.bank x).view.direct = false ∨ s.configLock = true)
    (hl : lookup (s.bank x).view p wr = none) (hw : Memory.word s.store ((s.bank x).view.base ++ p) = w) (o : BitVec 10) :
    judge s x p o wr =
      { hit := false, entry := entryOf w, walked := some w, outcome := walkOutcome s x w wr o } := by
  subst hw
  simp only [judge, not_directInEffect hd, hl, Bool.false_eq_true, if_false]
  rfl

theorem entryForm_noAccess (h : w.extractLsb' 9 2 = 0) : entryForm w = .noAccess := if_pos h

/-- A word that is malformed (R27). -/
def MalformedWord (w : Word) : Prop := w.extractLsb' 12 20 ≠ 0 ∨ (w.getLsbD 8 = true ∧ w.extractLsb' 4 4 ≠ 0)

theorem entryForm_malformed (h : w.extractLsb' 9 2 ≠ 0) (hm : MalformedWord w) : entryForm w = .malformed :=
  (if_neg h).trans (if_pos hm)

theorem entryForm_wellFormed (h : w.extractLsb' 9 2 ≠ 0) (hm : ¬ MalformedWord w) : entryForm w = .wellFormed :=
  (if_neg h).trans (if_neg hm)

theorem Permits.ne_zero {acc : BitVec 2} (h : Permits acc wr) : acc ≠ 0 := by
  rintro rfl
  rcases h with h | ⟨_, h⟩
  · exact absurd h (by decide)
  · exact h rfl

theorem judgeEntry_refused {e : Entry} (h : refusedBy e.access wr = some r) : judgeEntry s x e wr o = .error r := by
  rw [judgeEntry, h]

theorem judgeEntry_plain {e : Entry} (hp : Permits e.access wr) (hk : e.kind = false) :
    judgeEntry s x e wr o = .ok (e.target ++ o) := by
  rw [judgeEntry, (refusedBy_eq_none _ _).mpr hp]
  simp only [hk, Bool.false_eq_true, if_false]
  rfl

theorem judgeEntry_conduit {e : Entry} (hp : Permits e.access wr) (hk : e.kind = true) :
    judgeEntry s x e wr o = windowCheck s x (e.target.extractLsb' 0 4) wr o := by
  rw [judgeEntry, (refusedBy_eq_none _ _).mpr hp]
  simp only [hk, if_true]

/-- What a walk leaves: its effects for a well-formed word, and nothing else. -/
theorem leaves_walk (hit : Bool) (e : Entry) (out : Except DenyReason StoreAddr) (hw : entryForm w = .wellFormed) :
    Judgement.leaves { hit := hit, entry := e, walked := some w, outcome := out } x p s =
      walked x p ((s.bank x).view.base ++ p) w s := walkEffects_wellFormed hw x p s

theorem leaves_walk_refused (hit : Bool) (e : Entry) (out : Except DenyReason StoreAddr) (hw : entryForm w ≠ .wellFormed) :
    Judgement.leaves { hit := hit, entry := e, walked := some w, outcome := out } x p s = s :=
  walkEffects_not_wellFormed hw x p s

end Sys2Proof.Machine
end

section
/-! The view accesses of direct translation, of a table walk and of a cached entry, and the probe (chapter 2). -/

namespace Sys2Proof.Machine

-- Elaborates the proofs in order, none beside the tests' kernel evaluations: each that waits there costs a thread's memory.
set_option deprecated.oldSectionVars true

variable {s u : State} {x : Port} {p o : BitVec 10} {off : BitVec 20} {size : BitVec 2} {op : BusOp} {wr : Bool}
  {w : Word} {j : Judgement} {r : DenyReason} {a : StoreAddr}

/-! ## Direct translation (R30, R31) -/

theorem toNat_pageOf (off : BitVec 20) : (pageOf off).toNat = off.toNat / 1024 := by
  have := off.isLt
  rw [pageOf, BitVec.extractLsb'_toNat, Nat.shiftRight_eq_div_pow]
  omega

/-- A page below 256 stands at its own place in the store. -/
theorem directAddr (off : BitVec 20) : (pageOf off).extractLsb' 0 8 ++ inPage off = BitVec.ofNat 18 off.toNat := by
  apply BitVec.eq_of_getLsbD_eq
  intro i hi
  rw [BitVec.getLsbD_append, BitVec.getLsbD_ofNat, decide_eq_true hi, Bool.true_and, BitVec.testBit_toNat]
  by_cases h10 : i < 10
  · rw [if_pos h10, inPage, BitVec.getLsbD_extractLsb', Nat.zero_add, decide_eq_true h10, Bool.true_and]
  · rw [if_neg h10, pageOf, BitVec.getLsbD_extractLsb', BitVec.getLsbD_extractLsb', Nat.zero_add,
      Nat.add_sub_cancel' (Nat.le_of_not_lt h10), decide_eq_true (by omega), decide_eq_true (by omega), Bool.true_and,
      Bool.true_and]

/-- Settles O16. -/
theorem directTranslationReachesTheFrame : Obligations.DirectTranslationReachesTheFrame := by
  intro x off size s h ha
  refine ⟨fun he op => faults_view_disabled h ha he op, fun he hd hl hlt => ?_⟩
  have hp : (pageOf off).toNat < 256 := by rw [toNat_pageOf]; omega
  have hj (wr : Bool) := (judge_direct he hd hl (pageOf off) (inPage off) wr).trans (if_pos hp)
  exact ⟨performs_view_read h ha he (hj false) (congrArg Except.ok (directAddr off)),
    performs_view_write h ha he (hj true) (congrArg Except.ok (directAddr off))⟩

/-- Settles O17. -/
theorem firstDenyIsRecordedAndTheSecondEscalates : Obligations.FirstDenyIsRecordedAndTheSecondEscalates := by
  intro x off size op s h ha he hd hl hge
  have hp : ¬ (pageOf off).toNat < 256 := by rw [toNat_pageOf]; omega
  exact denied_view h ha he ((judge_direct he hd hl (pageOf off) (inPage off) (isWrite op)).trans (if_neg hp)) rfl

/-! ## Table walks and cached entries (R33 to R39) -/

/-- An access to offset `o` of page `p` is judged by its page and its offset. -/
theorem judge_append (h : judge s x p o wr = j) : judge s x (pageOf (p ++ o)) (inPage (p ++ o)) wr = j := by
  rw [pageOf_append, inPage_append, h]

theorem walkOutcome_plain (hm : w.extractLsb' 12 20 = 0) (hk : w.getLsbD 8 = false) (hp : Permits (w.extractLsb' 9 2) wr)
    (o : BitVec 10) : entryForm w = .wellFormed ∧ walkOutcome s x w wr o = .ok (w.extractLsb' 0 8 ++ o) := by
  have hf : entryForm w = .wellFormed := entryForm_wellFormed hp.ne_zero <| by
    rintro (h | ⟨h, -⟩)
    · exact h hm
    · rw [hk] at h; cases h
  refine ⟨hf, ?_⟩
  rw [walkOutcome, hf]
  exact judgeEntry_plain hp hk

/-- Settles O18. -/
theorem tableWalkReachesTheFrame : Obligations.TableWalkReachesTheFrame := by
  intro x p o size d s h ha he hd i w a hm hk
  have hj {wr : Bool} (hmiss : CacheMisses (s.bank x).view p wr) := judge_walk hd (lookup_miss hmiss) (w := w) rfl o
  refine ⟨fun hmiss hp => ?_, fun hmiss hp => ?_⟩
  · obtain ⟨hf, hout⟩ := walkOutcome_plain (s := s) (x := x) hm hk hp o
    have hread := performs_view_read h ha he (judge_append (hj hmiss)) hout
    rw [pageOf_append, leaves_walk _ _ _ hf] at hread
    exact hread
  · obtain ⟨hf, hout⟩ := walkOutcome_plain (s := s) (x := x) hm hk hp o
    have hwrite := performs_view_write h ha he (judge_append (hj hmiss)) hout d
    rw [pageOf_append, leaves_walk _ _ _ hf] at hwrite
    exact hwrite

/-- Settles O20. -/
theorem cacheHitReachesTheFrame : Obligations.CacheHitReachesTheFrame := by
  intro x p o size d e s h ha he hd hs hc ht hk
  have hj {wr : Bool} (hp : Permits e.access wr) := judge_hit hd (lookup_hit hs hc ht hp) o
  refine ⟨fun hp => ?_, fun hp => ?_⟩
  · exact performs_view_read h ha he (judge_append (hj hp)) (judgeEntry_plain hp hk)
  · exact performs_view_write h ha he (judge_append (hj hp)) (judgeEntry_plain hp hk) d

/-- Settles O19. -/
theorem pageEntriesRefuseTheAccess : Obligations.PageEntriesRefuseTheAccess := by
  intro x p o size op s h ha he hd hmiss i w acc malformed denied
  have refused {r : DenyReason} {e : State} (hout : walkOutcome s x w (isWrite op) o = .error r)
      (hr : denyConduit r (entryOf w) = 0)
      (hleaves : ∀ out, Judgement.leaves ⟨false, entryOf w, some w, out⟩ x p s = e) : denied r e := by
    have hden := denied_view h ha he (op := op)
      (judge_append (judge_walk hd (lookup_miss hmiss) (w := w) rfl o)) hout
    rw [pageOf_append, hleaves, hr] at hden
    exact hden
  have unpermitted {r : DenyReason} (hacc : acc ≠ 0) (hm : ¬ malformed) (href : refusedBy acc (isWrite op) = some r)
      (hr : denyConduit r (entryOf w) = 0) : denied r (walked x p i w s) := by
    have hf : entryForm w = .wellFormed := entryForm_wellFormed hacc hm
    refine refused ?_ hr fun out => leaves_walk _ _ out hf
    rw [walkOutcome, hf]
    exact judgeEntry_refused href
  refine ⟨fun hacc => ?_, fun hacc hm => ?_, fun hacc hm hw => ?_, fun hacc hm hw => ?_⟩
  · have hf : entryForm w = .noAccess := entryForm_noAccess hacc
    refine refused ?_ rfl fun out => leaves_walk_refused _ _ out (by rw [hf]; exact EntryForm.noConfusion)
    rw [walkOutcome, hf]
  · have hf : entryForm w = .malformed := entryForm_malformed hacc hm
    refine refused ?_ rfl fun out => leaves_walk_refused _ _ out (by rw [hf]; exact EntryForm.noConfusion)
    rw [walkOutcome, hf]
  · exact unpermitted (by rw [hacc]; decide) hm (by rw [hacc, hw]; rfl) rfl
  · exact unpermitted (by rw [hacc]; decide) hm (by rw [hacc, hw]; rfl) rfl

/-! ## Conduit windows (R58, R79, R80, R82) -/

theorem Conduit.eq_consumer_iff (c : Conduit) (x : Port) : x = c.consumer ↔ x ≠ c.producer := by
  rw [Conduit.consumer]
  cases x <;> cases c.producer <;> decide

/-- The window checks in their order, and the slot's address past them. -/
theorem windowCheck_eq (s : State) (x : Port) (n : BitVec 4) (wr : Bool) (o : BitVec 10) :
    let c := s.conduit n
    let held := if x = c.producer then c.filling else c.reading
    (c.enabled = false → windowCheck s x n wr o = .error .conduitOff) ∧
    (c.enabled = true → s.isActive x = false → windowCheck s x n wr o = .error .absent) ∧
    (c.enabled = true → s.isActive x = true → held = none → windowCheck s x n wr o = .error .noSlot) ∧
    (c.enabled = true → s.isActive x = true → ∀ j, held = some j →
      windowCheck s x n wr o =
        if x ≠ c.producer ∧ wr = true then .error .direction
        else if (c.size.toNat + 1) * 16 ≤ o.toNat then .error .beyondSlot
        else .ok (BitVec.ofNat 18 (c.base.toNat * 16 + j.toNat * ((c.size.toNat + 1) * 16) + o.toNat))) := by
  intro c held
  refine ⟨fun he => ?_, fun he ha => ?_, fun he ha hh => ?_, fun he ha j hh => ?_⟩
  all_goals
    have he' : (s.conduit n).enabled = _ := he
  · simp only [windowCheck, he', Bool.not_false, if_true]
  · simp only [windowCheck, he', ha, Bool.not_false, Bool.not_true, Bool.false_eq_true, if_false, if_true]
  · have hh' : (s.conduit n).openSlot x = none := hh
    simp only [windowCheck, he', ha, hh', Bool.not_true, Bool.false_eq_true, if_false]
  · have hh' : (s.conduit n).openSlot x = some j := hh
    simp only [windowCheck, he', ha, hh', Bool.not_true, Bool.false_eq_true, if_false, Bool.and_eq_true,
      decide_eq_true_eq, Conduit.eq_consumer_iff]
    rfl

/-- An access that a conduit entry permits is judged by the window checks, whether the entry is cached or walked. -/
theorem judge_window {acc : BitVec 2} {target : Byte} (hd : (s.bank x).view.direct = false ∨ s.configLock = true)
    (hp : Permits acc wr) (h :
      ((s.bank x).view.sweep = none ∧ (s.bank x).view.cache.get (p.extractLsb' 0 6) =
          some { tag := p.extractLsb' 6 4, kind := true, access := acc, target := target } ∧ u = s) ∨
      (CacheMisses (s.bank x).view p wr ∧ w.extractLsb' 12 20 = 0 ∧ w.extractLsb' 4 4 = 0 ∧ w.getLsbD 8 = true ∧
        w.extractLsb' 9 2 = acc ∧ w.extractLsb' 0 8 = target ∧ u = walked x p ((s.bank x).view.base ++ p) w s))
    (hw : Memory.word s.store ((s.bank x).view.base ++ p) = w) (o : BitVec 10) :
    (judge s x p o wr).entry = { kind := true, access := acc, target := target } ∧
    (judge s x p o wr).outcome = windowCheck s x (target.extractLsb' 0 4) wr o ∧ (judge s x p o wr).leaves x p s = u := by
  rcases h with ⟨hs, hc, rfl⟩ | ⟨hmiss, hhigh, hlow, hk, rfl, rfl, rfl⟩
  · rw [judge_hit hd (lookup_hit hs hc rfl hp) o]
    exact ⟨rfl, judgeEntry_conduit hp rfl, rfl⟩
  · have hf : entryForm w = .wellFormed := entryForm_wellFormed hp.ne_zero <| by
      rintro (h | ⟨-, h⟩)
      · exact h hhigh
      · exact h hlow
    have hentry : entryOf w = { kind := true, access := w.extractLsb' 9 2, target := w.extractLsb' 0 8 } := by
      rw [entryOf, bit, hk]
    rw [judge_walk hd (lookup_miss hmiss) hw o]
    refine ⟨hentry, ?_, leaves_walk _ _ _ hf⟩
    rw [walkOutcome, hf, hentry]
    exact judgeEntry_conduit hp rfl

/-- Settles O21. -/
theorem conduitWindowReachesTheOpenSlot : Obligations.ConduitWindowReachesTheOpenSlot := by
  intro x p o size op acc target s u h ha he hd hp i w cached hjudged n c held denied
  obtain ⟨hentry, hout, hleaves⟩ := judge_window hd hp hjudged rfl o
  obtain ⟨hoff, habsent, hnoSlot, hslot⟩ := windowCheck_eq s x n (isWrite op) o
  have refused {r : DenyReason} (hr : windowCheck s x n (isWrite op) o = .error r)
      (hn : denyConduit r { kind := true, access := acc, target := target } = n) : denied r := by
    have hden := denied_view h ha he (op := op) (judge_append rfl) (hout.trans hr)
    rw [pageOf_append, hleaves, hentry, hn] at hden
    exact hden
  cases hen : c.enabled with
  | false => exact refused (hoff hen) rfl
  | true =>
    cases hact : s.isActive x with
    | false => exact refused (habsent hen hact) rfl
    | true =>
      rw [if_neg (by decide), if_neg (by decide)]
      by_cases hheld : held = none
      · rw [if_pos hheld]
        exact refused (hnoSlot hen hact hheld) rfl
      · rw [if_neg hheld]
        obtain ⟨j, hj⟩ := Option.ne_none_iff_exists'.mp hheld
        have hcheck := hslot hen hact j hj
        by_cases hdir : x ≠ c.producer ∧ isWrite op = true
        · rw [if_pos hdir]
          exact refused (hcheck.trans (if_pos hdir)) rfl
        · rw [if_neg hdir]
          by_cases hbeyond : (c.size.toNat + 1) * 16 ≤ o.toNat
          · rw [if_pos hbeyond]
            exact refused (hcheck.trans ((if_neg hdir).trans (if_pos hbeyond))) rfl
          · rw [if_neg hbeyond]
            intro k hk
            obtain rfl : j = k := Option.some.inj (hj.symm.trans hk)
            have hok := hout.trans (hcheck.trans ((if_neg hdir).trans (if_neg hbeyond)))
            refine ⟨fun hop => ?_, fun d hop => ?_⟩
            · subst hop
              have hread := performs_view_read h ha he (judge_append rfl) hok
              have hleft : (judge s x p o false).leaves x p s = u := hleaves
              rw [pageOf_append, hleft] at hread
              exact hread
            · subst hop
              have hwrite := performs_view_write h ha he (judge_append rfl) hok d
              have hleft : (judge s x p o true).leaves x p s = u := hleaves
              rw [pageOf_append, hleft] at hwrite
              exact hwrite

/-! ## The probe (R47 to R50) -/

theorem performs_probe (h : Takes x s) (w : Word) : Performs (.probe (solo x) w) x 0 s
    (s.mapBank x fun b => { b with view := { b.view with
        probeAddr := w.extractLsb' 0 24, probeWrite := w.getLsbD 31
        probeResult := some (probeFinds s x (w.extractLsb' 0 24) (w.getLsbD 31)).1
        probePhys := (probeFinds s x (w.extractLsb' 0 24) (w.getLsbD 31)).2 } }) :=
  performs_write_own h (r := .probeAddr) rfl rfl rfl

/-- The view space is the addresses from 0x100000 up to 0x200000. -/
theorem space_view_iff (a : PortAddr) : (∃ off, space a = .view off) ↔ 0x100000 ≤ a.toNat ∧ a.toNat < 0x200000 := by
  have hlow : a.extractLsb' 12 12 = 0 ↔ a.toNat / 2 ^ 12 % 2 ^ 12 = 0 := by
    rw [← BitVec.toNat_inj, BitVec.extractLsb'_toNat, Nat.shiftRight_eq_div_pow]
    rfl
  have hhigh : a.extractLsb' 20 4 = 1 ↔ a.toNat / 2 ^ 20 % 2 ^ 4 = 1 := by
    rw [← BitVec.toNat_inj, BitVec.extractLsb'_toNat, Nat.shiftRight_eq_div_pow]
    rfl
  have hlt := a.isLt
  unfold space
  split
  · rename_i h
    rw [hlow] at h
    exact ⟨fun ⟨off, e⟩ => (nomatch e), fun hin => by omega⟩
  · split
    · rename_i h
      rw [hhigh] at h
      exact ⟨fun _ => by omega, fun _ => ⟨_, rfl⟩⟩
    · rename_i h
      rw [hhigh] at h
      exact ⟨fun ⟨off, e⟩ => (nomatch e), fun hin => by omega⟩

theorem probeFinds_outside {a : PortAddr} (h : ¬ ∃ off, space a = .view off) (wr : Bool) :
    probeFinds s x a wr = ({ outcome := 14, hit := false, kind := false, access := 0, target := 0 }, 0) := by
  unfold probeFinds
  split
  · rename_i off ho
    exact absurd ⟨off, ho⟩ h
  · rfl

theorem probeFinds_disabled {a : PortAddr} (h : space a = .view off) (he : (s.bank x).view.enable = false) (wr : Bool) :
    probeFinds s x a wr = ({ outcome := 15, hit := false, kind := false, access := 0, target := 0 }, 0) := by
  simp only [probeFinds, h, he, Bool.not_false, if_true]

/-- Settles O23. -/
theorem probeOutsideTheView : Obligations.ProbeOutsideTheView := by
  intro x w s h a reports
  have reported {o : BitVec 4} (hf : probeFinds s x a (w.getLsbD 31) =
      ({ outcome := o, hit := false, kind := false, access := 0, target := 0 }, 0)) : reports o := by
    have hprobe := performs_probe h w
    rw [show probeFinds s x (w.extractLsb' 0 24) (w.getLsbD 31) = _ from hf] at hprobe
    exact hprobe
  refine ⟨fun hout => reported (probeFinds_outside (mt (space_view_iff a).mp hout) _), fun hin he => ?_⟩
  obtain ⟨off, hoff⟩ := (space_view_iff a).mpr hin
  exact reported (probeFinds_disabled hoff he _)

/-- What a probe reports of a judgement (R48, R49). -/
def Judgement.report (j : Judgement) : ProbeResult × StoreAddr :=
  match j.outcome with
  | .error r =>
    ({ outcome := r.code, hit := j.hit, kind := j.entry.kind, access := j.entry.access, target := j.entry.target }, 0)
  | .ok a => ({ outcome := 0, hit := j.hit, kind := j.entry.kind, access := j.entry.access, target := j.entry.target }, a)

theorem probeFinds_enabled (he : (s.bank x).view.enable = true) (p o : BitVec 10) (wr : Bool) :
    probeFinds s x (viewAddr (p ++ o)) wr = (judge s x p o wr).report := by
  simp only [probeFinds, space_viewAddr, he, Bool.not_true, Bool.false_eq_true, if_false, pageOf_append, inPage_append]
  rfl

theorem report_items (j : Judgement) : j.report.1.hit = j.hit ∧ j.report.1.kind = j.entry.kind ∧
    j.report.1.access = j.entry.access ∧ j.report.1.target = j.entry.target := by
  unfold Judgement.report
  split <;> exact ⟨rfl, rfl, rfl, rfl⟩

/-- The word of a probe: the address in bits 23:0 and the direction in bit 31. -/
def probeAddrWord (off : BitVec 20) (wr : Bool) : Word := (if wr then 0x80000000 else 0) ||| (viewAddr off).setWidth 32

theorem probeAddrWord_addr (off : BitVec 20) (wr : Bool) : (probeAddrWord off wr).extractLsb' 0 24 = viewAddr off := by
  have hhigh : (0x80000000 : Word).extractLsb' 0 24 = 0 := by decide
  have hzero : (0 : Word).extractLsb' 0 24 = 0 := by decide
  have haddr : ((viewAddr off).setWidth 32).extractLsb' 0 24 = viewAddr off := by
    apply BitVec.eq_of_getLsbD_eq
    intro i hi
    simp [hi]
    omega
  rw [probeAddrWord, BitVec.extractLsb'_or, haddr]
  cases wr with
  | true => rw [if_pos rfl, hhigh, BitVec.ofNat_eq_ofNat, BitVec.zero_or]
  | false => rw [if_neg Bool.false_ne_true, hzero, BitVec.ofNat_eq_ofNat, BitVec.zero_or]

theorem probeAddrWord_write (off : BitVec 20) (wr : Bool) : (probeAddrWord off wr).getLsbD 31 = wr := by
  have haddr : ((viewAddr off).setWidth 32).getLsbD 31 = false := by
    rw [BitVec.getLsbD_setWidth, BitVec.getLsbD_of_ge _ _ (by decide), Bool.and_false]
  rw [probeAddrWord, BitVec.getLsbD_or, haddr, Bool.or_false]
  cases wr <;> rfl

/-- The judgement reads the port's view, the lock, the store, the conduits and the port's presence, and nothing else. -/
theorem judge_congr {t : State} (hview : (t.bank x).view = (s.bank x).view) (hlock : t.configLock = s.configLock)
    (hstore : t.store = s.store) (hconduits : t.conduits = s.conduits) (hactive : t.isActive x = s.isActive x)
    (p o : BitVec 10) (wr : Bool) : judge t x p o wr = judge s x p o wr := by
  have hconduit (n : BitVec 4) : t.conduit n = s.conduit n := congrArg (Table.get · n) hconduits
  have hwindow (n : BitVec 4) : windowCheck t x n wr o = windowCheck s x n wr o := by
    unfold windowCheck
    rw [hconduit, hactive]
  have hentry (e : Entry) : judgeEntry t x e wr o = judgeEntry s x e wr o := by
    unfold judgeEntry
    rw [hwindow]
  unfold judge directInEffect
  simp only [hview, hlock, hstore, hentry]

theorem windowCheck_ok {n : BitVec 4} (h : windowCheck s x n wr o = .ok a) :
    ∃ j, (if x = (s.conduit n).producer then (s.conduit n).filling else (s.conduit n).reading) = some j ∧
      a = BitVec.ofNat 18 ((s.conduit n).base.toNat * 16 + j.toNat * (((s.conduit n).size.toNat + 1) * 16) + o.toNat) := by
  obtain ⟨hoff, habsent, hnoSlot, hslot⟩ := windowCheck_eq s x n wr o
  cases hen : (s.conduit n).enabled with
  | false => rw [hoff hen] at h; cases h
  | true =>
    cases hact : s.isActive x with
    | false => rw [habsent hen hact] at h; cases h
    | true =>
      cases hheld : (if x = (s.conduit n).producer then (s.conduit n).filling else (s.conduit n).reading) with
      | none => rw [hnoSlot hen hact hheld] at h; cases h
      | some j =>
        rw [hslot hen hact j hheld] at h
        split at h
        · cases h
        · split at h
          · cases h
          · exact ⟨j, rfl, (Except.ok.inj h).symm⟩

theorem judgeEntry_ok {e : Entry} (h : judgeEntry s x e wr o = .ok a) :
    (e.kind = false → a = e.target ++ o) ∧ (e.kind = true → windowCheck s x (e.target.extractLsb' 0 4) wr o = .ok a) := by
  rw [judgeEntry] at h
  split at h
  · cases h
  · refine ⟨fun hk => ?_, fun hk => ?_⟩
    · rw [hk] at h; exact (Except.ok.inj h).symm
    · rw [hk] at h; exact h

/-- Where an access is let through, its entry leads to the address. -/
theorem judge_ok (h : (judge s x p o wr).outcome = .ok a) :
    ((judge s x p o wr).entry.kind = false → a = (judge s x p o wr).entry.target ++ o) ∧
    ((judge s x p o wr).entry.kind = true →
      windowCheck s x ((judge s x p o wr).entry.target.extractLsb' 0 4) wr o = .ok a) := by
  cases hd : directInEffect s x with
  | true =>
    simp only [judge, hd, if_true] at h ⊢
    split at h
    · rename_i hp
      simp only [if_pos hp]
      exact ⟨fun _ => (Except.ok.inj h).symm, fun hk => (nomatch hk)⟩
    · cases h
  | false =>
    simp only [judge, hd, Bool.false_eq_true, if_false] at h ⊢
    split at h
    · rename_i e he
      exact judgeEntry_ok h
    · simp only at h
      split at h
      · cases h
      · cases h
      · exact judgeEntry_ok h

/-! ## The access that a probe foretells (R50) -/

/-- What the link shows after an answered step, and the port's records. -/
theorem answered_link (x : Port) (q : Response) (s v : State) : (answered x q s v).link x = .taken q ∧
    ((answered x q s v).bank x).records = (v.bank x).records := by
  refine ⟨PerPort.get_set_same .., ?_⟩
  show ((if (s.bank x).monitor.presence = .active then _ else _ : PerPort Bank).get x).records = _
  split
  · cases x <;> rfl
  · rfl

/-- What an access that is let through returns. -/
def readData (op : BusOp) (a : StoreAddr) (size : BitVec 2) (s : State) : Word :=
  match op with
  | .read => Memory.load s.store a size
  | .write _ => 0

theorem exec_view_okay (h : Takes x s) (ha : aligned (viewAddr (p ++ o)) size = true) (he : (s.bank x).view.enable = true)
    (ho : (judge s x p o (isWrite op)).outcome = .ok a) :
    ∃ t, exec (.viewAccess (solo x) (p ++ o) size op) s = .next t ∧
      t.link x = .taken { resp := .okay, rdata := readData op a size s } := by
  cases op with
  | read => exact ⟨_, performs_view_read h ha he (judge_append rfl) ho, (answered_link ..).1⟩
  | write d => exact ⟨_, performs_view_write h ha he (judge_append rfl) ho d, (answered_link ..).1⟩

theorem exec_view_denied (h : Takes x s) (ha : aligned (viewAddr (p ++ o)) size = true) (he : (s.bank x).view.enable = true)
    (ho : (judge s x p o (isWrite op)).outcome = .error r) :
    ∃ t, exec (.viewAccess (solo x) (p ++ o) size op) s = .next t ∧
      ((s.bank x).records.deny = none → t.link x = .taken { resp := .deny, rdata := 0 } ∧
        ∃ rec, (t.bank x).records.deny = some rec ∧ rec.reason = r) ∧
      ((s.bank x).records.deny ≠ none → t.link x = .taken { resp := .fault, rdata := 0 }) := by
  obtain ⟨hdeny, hfault⟩ := denied_view h ha he (op := op) (judge_append rfl) ho
  by_cases hd : (s.bank x).records.deny = none
  · refine ⟨_, hdeny hd, fun _ => ⟨(answered_link ..).1, ?_⟩, fun hne => absurd hd hne⟩
    rw [(answered_link ..).2, State.bank_mapBank_same]
    exact ⟨_, rfl, rfl⟩
  · exact ⟨_, hfault hd, fun hno => absurd hno hd, fun _ => (answered_link ..).1⟩

theorem DenyReason.code_ne_zero (r : DenyReason) : r.code ≠ 0 := by cases r <;> decide

/-- The deny record released, as a probe's forecast supposes it (R50). -/
def emptyDeny (x : Port) (s : State) : State :=
  s.mapBank x fun b => { b with records := { b.records with deny := none } }

theorem emptyDeny_bank (x : Port) (s : State) : ((emptyDeny x s).bank x).view = (s.bank x).view ∧
    ((emptyDeny x s).bank x).records.deny = none ∧ (emptyDeny x s).isActive x = s.isActive x := by
  unfold State.isActive emptyDeny
  rw [State.bank_mapBank_same]
  exact ⟨rfl, rfl, rfl⟩

theorem judge_emptyDeny (s : State) (x : Port) (p o : BitVec 10) (wr : Bool) :
    judge (emptyDeny x s) x p o wr = judge s x p o wr := by
  obtain ⟨hview, -, hactive⟩ := emptyDeny_bank x s
  exact judge_congr hview rfl rfl rfl hactive p o wr

theorem takes_emptyDeny (h : Takes x s) : Takes x (emptyDeny x s) := ⟨h.runs, h.ready⟩

/-- The access at the same instant goes as its judgement is reported: answered OKAY at the reported address, or denied for
the reported reason where the deny record is EMPTY, and escalated where it is LATCHED. -/
theorem exec_view_reported (h : Takes x s) (ha : aligned (viewAddr (p ++ o)) size = true)
    (he : (s.bank x).view.enable = true) (hj : judge s x p o (isWrite op) = j) :
    ∃ t u, exec (.viewAccess (solo x) (p ++ o) size op) (emptyDeny x s) = .next t ∧
      exec (.viewAccess (solo x) (p ++ o) size op) s = .next u ∧
      (j.report.1.outcome = 0 → (∃ d, t.link x = .taken { resp := .okay, rdata := d } ∧ u.link x = t.link x) ∧
        j.outcome = .ok j.report.2) ∧
      (j.report.1.outcome ≠ 0 → j.report.2 = 0 ∧ t.link x = .taken { resp := .deny, rdata := 0 } ∧
        (∃ rec, (t.bank x).records.deny = some rec ∧ rec.reason.code = j.report.1.outcome) ∧
        ((s.bank x).records.deny ≠ none → u.link x = .taken { resp := .fault, rdata := 0 })) := by
  subst hj
  obtain ⟨hview, hnone, -⟩ := emptyDeny_bank x s
  have he' : ((emptyDeny x s).bank x).view.enable = true := by rw [hview]; exact he
  have hempty := takes_emptyDeny h
  cases hout : (judge s x p o (isWrite op)).outcome with
  | ok a =>
    obtain ⟨t, ht, htl⟩ := exec_view_okay hempty ha he' (by rw [judge_emptyDeny]; exact hout)
    obtain ⟨u, hu, hul⟩ := exec_view_okay h ha he hout
    refine ⟨t, u, ht, hu, fun _ => ⟨⟨_, htl, hul.trans htl.symm⟩, ?_⟩, fun hne => absurd ?_ hne⟩
    · rw [Judgement.report, hout]
    · rw [Judgement.report, hout]
  | error r =>
    obtain ⟨t, ht, htd, -⟩ := exec_view_denied hempty ha he' (by rw [judge_emptyDeny]; exact hout)
    obtain ⟨u, hu, -, huf⟩ := exec_view_denied h ha he hout
    obtain ⟨htl, rec, hrec, hreason⟩ := htd hnone
    rw [show (judge s x p o (isWrite op)).report = (_, 0) by rw [Judgement.report, hout]]
    exact ⟨t, u, ht, hu, fun h0 => absurd h0 r.code_ne_zero, fun _ => ⟨rfl, htl, ⟨rec, hrec, by rw [hreason]⟩, huf⟩⟩

/-- Settles O22. -/
theorem probeForetellsTheAccess : Obligations.ProbeForetellsTheAccess := by
  intro x p o wr d s h he op word v w direct emptied
  have hop : isWrite op = wr := by cases wr <;> rfl
  have hprobe := performs_probe h word
  rw [show word.extractLsb' 0 24 = _ from probeAddrWord_addr (p ++ o) wr, show word.getLsbD 31 = _ from
    probeAddrWord_write (p ++ o) wr, probeFinds_enabled he] at hprobe
  obtain ⟨j, hj⟩ : ∃ j, judge s x p o wr = j := ⟨_, rfl⟩
  obtain ⟨t, u, ht, hu, hok, hdenied⟩ :=
    exec_view_reported h (show aligned (viewAddr (p ++ o)) 0 = true from rfl) he (hop ▸ hj)
  rw [hj] at hprobe
  obtain ⟨-, hkind, -, htarget⟩ := report_items j
  have items {k : Judgement} (hk : judge s x p o wr = k) : j.report.1.hit = k.hit ∧ j.report.1.kind = k.entry.kind ∧
      j.report.1.access = k.entry.access ∧ j.report.1.target = k.entry.target := by
    rw [← hk, hj]
    exact report_items j
  have translated (hd : ¬ direct) : (s.bank x).view.direct = false ∨ s.configLock = true := by
    rcases not_and_or.mp hd with hd | hl
    · exact .inl (Bool.eq_false_iff.mpr hd)
    · exact .inr (Bool.not_eq_false _ ▸ hl)
  refine ⟨j.report.1, j.report.2, t, u, hprobe, fun hd => ?direct, fun hd e hs hc htag hp => ?hit,
    fun hd hmiss => items (judge_walk (translated hd) (lookup_miss hmiss) rfl o), ht, hu, fun h0 => ?okay, hdenied⟩
  case direct =>
    have hdirect := judge_direct he hd.1 hd.2 p o wr
    by_cases hp : p.toNat < 256
    · rw [if_pos hp, if_pos hp]
      exact items (hdirect.trans (if_pos hp))
    · rw [if_neg hp, if_neg hp]
      exact items (hdirect.trans (if_neg hp))
  case hit => exact items (judge_hit (translated hd) (lookup_hit hs hc htag hp) o)
  case okay =>
    obtain ⟨hlinks, hout⟩ := hok h0
    rw [← hj] at hout
    obtain ⟨hplain, hwindow⟩ := judge_ok hout
    rw [hj] at hplain hwindow
    rw [hkind, htarget]
    exact ⟨hlinks, hplain, fun hk => windowCheck_ok (hwindow hk)⟩

end Sys2Proof.Machine
end
